-- ==== Sys2Proof/Word.lean ====
section
/-! DEFINITION. The two widths of the block: a byte of the wire (spec/00_scope.md section 5) and the 32-bit value of
the word layout (spec/30_encoding.md R53). -/

namespace Sys2Proof

/-- A byte, an unsigned integer 0..255 (spec/00_scope.md section 5). -/
abbrev Byte := BitVec 8

/-- A SpeedValue or a raw diagnostic value, 32-bit unsigned (spec/10_state.md R20). -/
abbrev Word := BitVec 32

end Sys2Proof
end

