-- ==== Sys2Proof/Config.lean ====
section
/-! DEFINITION. The configuration of one built block: the parameters spec/00_scope.md R4 leaves open. The parameters
R4 marks as decided are constants of Sys2Proof/Machine/Operands.lean and Sys2Proof/Machine/Flags.lean; the block needs no free value. -/

namespace Sys2Proof

/-- The two admitted values of `KIND_SET_ROLL_SPEED` (spec/00_scope.md R4, decision D8). -/
inductive RollSpeedKind where
  /-- `C` = 0x43, the observed protocol, the default. -/
  | observedC
  /-- `D` = 0x44, the distinct kind the letter pattern suggests. -/
  | distinctD
  deriving DecidableEq, Repr

/-- The configuration record of spec/00_scope.md R4. It is fixed when the block is built; no operation changes it
(spec/10_state.md R25). -/
structure Config where
  /-- `KIND_SET_ROLL_SPEED`. -/
  rollSpeed : RollSpeedKind
  /-- `RXQ_CAP`; `none` is the unbounded queue of the reference semantics. -/
  rxqCap : Option Nat
  /-- `TXQ_CAP`; `none` is the unbounded queue of the reference semantics. -/
  txqCap : Option Nat
  deriving DecidableEq, Repr

/-- The reference configuration: the observed protocol, both queues unbounded (spec/00_scope.md R4). -/
def Config.reference : Config := { rollSpeed := .observedC, rxqCap := none, txqCap := none }

/-- A queue of `n` bytes is within a capacity (spec/20_memory.md R46). -/
def withinCap (cap : Option Nat) (n : Nat) : Bool :=
  match cap with
  | none => true
  | some c => n ≤ c

end Sys2Proof
end

