-- ==== Sys2Proof/Syntax.lean ====
section
/-! DEFINITION. The instructions of the block: one constructor of `Instr` for each row of spec/opcode_table.json, the
types of their operands, and the raw forms the decoder reads. -/

namespace Sys2Proof

/-- One of the two controlled axes (spec/00_scope.md section 8). -/
inductive Channel where
  | pitch
  | roll
  deriving DecidableEq, Repr

/-- `{ power, flags }`, two raw bytes (spec/10_state.md R19). -/
structure ChannelSettings where
  power : Byte
  flags : Byte
  deriving DecidableEq, Repr

/-- A complete frame (spec/10_state.md R18): `payload` has exactly `length` bytes, at most 32; `Frame.wf` says so. -/
structure Frame where
  kind : Byte
  length : Byte
  payload : List Byte
  deriving DecidableEq, Repr

/-- The closed type of commands (spec/42_encoder.md R105). -/
inductive Command where
  | getSettings (channel : Channel)
  | setSettings (channel : Channel) (settings : ChannelSettings)
  | setSpeed (channel : Channel) (value : Word)
  | storeToFlash
  deriving DecidableEq, Repr

/-- The rows of spec/opcode_table.json, in its order. -/
inductive Instr where
  /-- HDR_CORRUPT: a header whose length byte is 33..255 (R58, R73). -/
  | hdrCorrupt (kind length : Byte)
  /-- RPT_PITCH_SETTINGS: kind `a`, length 2 (R91). -/
  | rptPitchSettings (power flags : Byte)
  /-- RPT_ROLL_SETTINGS: kind `c`, length 2 (R92). -/
  | rptRollSettings (power flags : Byte)
  /-- RPT_PITCH_SPEED: kind `b`, length 4 (R93). -/
  | rptPitchSpeed (value : Word)
  /-- RPT_ROLL_SPEED: kind `d`, length 4 (R94). -/
  | rptRollSpeed (value : Word)
  /-- RPT_DIAGNOSTIC: kind `i`, length 4 (R95). -/
  | rptDiagnostic (value : Word)
  /-- SIZE_MISMATCH_A: kind `a`, another length (R96). -/
  | sizeMismatchA (length : Byte) (payload : List Byte)
  /-- SIZE_MISMATCH_C: kind `c`, another length (R96). -/
  | sizeMismatchC (length : Byte) (payload : List Byte)
  /-- SIZE_MISMATCH_B: kind `b`, another length (R96). -/
  | sizeMismatchB (length : Byte) (payload : List Byte)
  /-- SIZE_MISMATCH_D: kind `d`, another length (R96). -/
  | sizeMismatchD (length : Byte) (payload : List Byte)
  /-- SIZE_MISMATCH_I: kind `i`, another length (R96). -/
  | sizeMismatchI (length : Byte) (payload : List Byte)
  /-- UNRECOGNIZED: a kind outside the table (R97). -/
  | unrecognized (kind length : Byte) (payload : List Byte)
  /-- GET_SETTINGS_PITCH (R106). -/
  | getSettingsPitch
  /-- GET_SETTINGS_ROLL (R107). -/
  | getSettingsRoll
  /-- SET_SETTINGS_PITCH (R108). -/
  | setSettingsPitch (power flags : Byte)
  /-- SET_SETTINGS_ROLL (R109). -/
  | setSettingsRoll (power flags : Byte)
  /-- SET_SPEED_PITCH (R110). -/
  | setSpeedPitch (value : Word)
  /-- SET_SPEED_ROLL (R111). -/
  | setSpeedRoll (value : Word)
  /-- STORE_TO_FLASH (R112). -/
  | storeToFlash
  /-- RESET (R161). -/
  | reset
  /-- RXPUSH(b) (R120). -/
  | rxpush (data : Byte)
  /-- POLL (R70). -/
  | poll
  /-- DISPATCH(f) (R90). -/
  | dispatch (frame : Frame)
  /-- SERVICE (R122). -/
  | service
  /-- ENCODE(c) (R105). -/
  | encode (command : Command)
  /-- TXPOP(n) (R124). -/
  | txpop (count : Nat)
  deriving DecidableEq, Repr

/-! The raw forms, before decoding. -/

/-- The fields of the command port (spec/30_encoding.md R62). -/
structure CmdPort where
  op : BitVec 2
  chan : BitVec 1
  power : Byte
  flags : Byte
  speed : Word
  deriving DecidableEq, Repr

/-- One transaction on a port (spec/43_link_ports.md R127), and the two internal steps of SERVICE, which have no port
of their own (spec/opcode_table.json, rows POLL and DISPATCH). -/
inductive PortOp where
  /-- Port `rst`. -/
  | rst
  /-- Port `rx`, carrying `rx_data[7:0]`. -/
  | rx (data : Byte)
  /-- Internal: one POLL of the Framing State Machine. -/
  | framer
  /-- Internal: one DISPATCH; the operand is a frame as it stood on the wire. -/
  | dispatcher (bytes : List Byte)
  /-- Port `poll`: SERVICE. -/
  | poll
  /-- Port `cmd`, read as the one operation ENCODE. -/
  | cmd (fields : CmdPort)
  /-- Port `cmd`, read by its selector: a row of format CMD (spec/30_encoding.md R67). -/
  | cmdRow (fields : CmdPort)
  /-- Port `tx`: the link takes `count` bytes. The spec gives the count no width (R124). -/
  | tx (count : Nat)
  deriving DecidableEq, Repr

/-- What the decoder reads: bytes of a frame from the received stream, or a transaction on a port
(spec/30_encoding.md R67: rows of format FRAME_RX, CMD and PORT). -/
inductive Encoded where
  | frame (bytes : List Byte)
  | port (op : PortOp)
  deriving DecidableEq, Repr

/-- Why the decoder refuses. -/
inductive DecodeError where
  /-- Fewer than two bytes: no header (spec/40_framer.md R71). -/
  | shortHeader
  /-- Fewer payload bytes than the length byte declares (R75). -/
  | shortPayload
  /-- A length byte above 32 where a Frame is needed (spec/10_state.md R18). -/
  | lengthAboveCapacity
  /-- Bytes left over behind the frame. -/
  | trailingBytes
  deriving DecidableEq, Repr

end Sys2Proof
end

