-- ==== Sys2Proof/Machine/Operands.lean ====
section
/-! DEFINITION. Fixed constants, the kind catalogue, the operand forms (payload layouts) and the byte order of their
fields, the wire bytes of a command and their inverse (spec/00_scope.md R3, spec/20_memory.md R30, R31,
spec/30_encoding.md R50 to R57, spec/42_encoder.md R105 to R114). -/

namespace Sys2Proof

/-! ### Constants (spec/00_scope.md R3) -/

/-- `MAX_PAYLOAD`: the fixed payload capacity. -/
abbrev maxPayload : Nat := 32
/-- `HEADER_SIZE`: kind and length. -/
abbrev headerSize : Nat := 2
/-- `RETRY_LIMIT`: recovery fires when `retry_count > 2`. -/
abbrev retryLimit : Nat := 2
/-- `SETTINGS_SIZE`. -/
abbrev settingsSize : Byte := 2#8
/-- `WORD_SIZE`. -/
abbrev wordSize : Byte := 4#8

/-! ### Kind bytes (spec/30_encoding.md R54 to R56). `a` and `b` are given in hex; the others are ASCII codes,
PRESUMED (G1, log 16). -/

/-- `a`, pitch settings report. -/
def kindPitchSettings : Byte := 0x61#8
/-- `b`, pitch speed readback. -/
def kindPitchSpeed : Byte := 0x62#8
/-- `c`, roll settings report. -/
def kindRollSettings : Byte := 0x63#8
/-- `d`, roll speed readback. -/
def kindRollSpeed : Byte := 0x64#8
/-- `i`, generic diagnostic. -/
def kindDiagnostic : Byte := 0x69#8
/-- `KIND_GET_PITCH_SETTINGS`, `a` (decision D7, log 15). -/
def kindGetPitchSettings : Byte := 0x61#8
/-- `KIND_GET_ROLL_SETTINGS`, `c` (decision D7, log 15). -/
def kindGetRollSettings : Byte := 0x63#8
/-- `A`, set pitch settings. -/
def kindSetPitchSettings : Byte := 0x41#8
/-- `C`, set roll settings. -/
def kindSetRollSettings : Byte := 0x43#8
/-- `B`, set pitch speed. -/
def kindSetPitchSpeed : Byte := 0x42#8
/-- `W`, store to flash. -/
def kindStoreToFlash : Byte := 0x57#8

/-- The byte of `KIND_SET_ROLL_SPEED` (spec/00_scope.md R4). -/
def RollSpeedKind.toByte : RollSpeedKind → Byte
  | .observedC => 0x43#8
  | .distinctD => 0x44#8

/-- The five inbound kinds of the Dispatcher's table (spec/30_encoding.md R55). -/
def recognizedKinds : List Byte :=
  [kindPitchSettings, kindRollSettings, kindPitchSpeed, kindRollSpeed, kindDiagnostic]

/-- The expected payload size of a recognized kind (spec/30_encoding.md R55). -/
def expectedSize (kind : Byte) : Option Byte :=
  if kind = kindPitchSettings ∨ kind = kindRollSettings then some settingsSize
  else if kind = kindPitchSpeed ∨ kind = kindRollSpeed ∨ kind = kindDiagnostic then some wordSize
  else none

/-! ### Byte order (spec/20_memory.md R30) -/

/-- `LE32` of four bytes, the lowest payload offset first: it is the least significant byte. -/
def le32 (b0 b1 b2 b3 : Byte) : Word := b3 ++ b2 ++ b1 ++ b0

/-- `BytesLE32(v) = [v[7:0], v[15:8], v[23:16], v[31:24]]`. -/
def bytesLE32 (v : Word) : List Byte :=
  [v.extractLsb' 0 8, v.extractLsb' 8 8, v.extractLsb' 16 8, v.extractLsb' 24 8]

/-! ### Frames (spec/30_encoding.md R50, spec/20_memory.md R31) -/

/-- The bytes of a frame on the wire and in both queues: kind, length, payload. -/
def Frame.bytes (f : Frame) : List Byte := f.kind :: f.length :: f.payload

/-- The frame that carries `payload` under `kind`; its length byte counts payload bytes only (R51). -/
def frameOf (kind : Byte) (payload : List Byte) : Frame :=
  { kind := kind, length := BitVec.ofNat 8 payload.length, payload := payload }

/-! ### Commands on the wire (spec/42_encoder.md R105 to R112) -/

/-- The outbound frame of a command. -/
def Command.frame (k : RollSpeedKind) : Command → Frame
  | .getSettings .pitch => frameOf kindGetPitchSettings []
  | .getSettings .roll => frameOf kindGetRollSettings []
  | .setSettings .pitch cs => frameOf kindSetPitchSettings [cs.power, cs.flags]
  | .setSettings .roll cs => frameOf kindSetRollSettings [cs.power, cs.flags]
  | .setSpeed .pitch v => frameOf kindSetPitchSpeed (bytesLE32 v)
  | .setSpeed .roll v => frameOf k.toByte (bytesLE32 v)
  | .storeToFlash => frameOf kindStoreToFlash []

/-- `Enc(c)`: the bytes ENCODE appends, a function of the command and the configuration only (R113). -/
def Command.enc (k : RollSpeedKind) (c : Command) : List Byte := (c.frame k).bytes

/-- `Dec`, the inverse of `Enc` on its range, by the first two bytes. It is no part of the block (R114). -/
def Command.dec (k : RollSpeedKind) : List Byte → Option Command
  | [kind, length] =>
    if length ≠ 0#8 then none
    else if kind = kindGetPitchSettings then some (.getSettings .pitch)
    else if kind = kindGetRollSettings then some (.getSettings .roll)
    else if kind = kindStoreToFlash then some .storeToFlash
    else none
  | [kind, length, power, flags] =>
    if length ≠ settingsSize then none
    else if kind = kindSetPitchSettings then some (.setSettings .pitch ⟨power, flags⟩)
    else if kind = kindSetRollSettings then some (.setSettings .roll ⟨power, flags⟩)
    else none
  | [kind, length, b0, b1, b2, b3] =>
    if length ≠ wordSize then none
    else if kind = kindSetPitchSpeed then some (.setSpeed .pitch (le32 b0 b1 b2 b3))
    else if kind = k.toByte then some (.setSpeed .roll (le32 b0 b1 b2 b3))
    else none
  | _ => none

end Sys2Proof
end

