-- ==== Sys2Proof/WellFormed.lean ====
section
/-! DEFINITION. The static check of an instruction's operands: which terms of `Instr` are instructions of the block. -/

namespace Sys2Proof

/-- A Frame's payload is exactly `length` bytes, at most 32 (spec/10_state.md R18). -/
def Frame.wf (f : Frame) : Bool :=
  decide (f.payload.length = f.length.toNat) && decide (f.length.toNat ≤ maxPayload)

/-- A frame of a recognized kind whose length is not the expected one (spec/30_encoding.md R60). -/
def wrongSize (expected length : Byte) (payload : List Byte) : Bool :=
  decide (payload.length = length.toNat) && decide (length.toNat ≤ maxPayload) && decide (length ≠ expected)

/-- The conditions of the table's rows on their operands (spec/opcode_table.json, `condition`; spec/10_state.md R18).
TXPOP's bound is on the state, not on the operand alone. -/
def Instr.wf : Instr → Bool
  | .hdrCorrupt _ length => decide (maxPayload < length.toNat)
  | .rptPitchSettings _ _ => true
  | .rptRollSettings _ _ => true
  | .rptPitchSpeed _ => true
  | .rptRollSpeed _ => true
  | .rptDiagnostic _ => true
  | .sizeMismatchA length payload => wrongSize settingsSize length payload
  | .sizeMismatchC length payload => wrongSize settingsSize length payload
  | .sizeMismatchB length payload => wrongSize wordSize length payload
  | .sizeMismatchD length payload => wrongSize wordSize length payload
  | .sizeMismatchI length payload => wrongSize wordSize length payload
  | .unrecognized kind length payload =>
    Frame.wf ⟨kind, length, payload⟩ && !recognizedKinds.contains kind
  | .getSettingsPitch => true
  | .getSettingsRoll => true
  | .setSettingsPitch _ _ => true
  | .setSettingsRoll _ _ => true
  | .setSpeedPitch _ => true
  | .setSpeedRoll _ => true
  | .storeToFlash => true
  | .reset => true
  | .rxpush _ => true
  | .poll => true
  | .dispatch frame => frame.wf
  | .service => true
  | .encode _ => true
  | .txpop _ => true

end Sys2Proof
end

