-- ==== Sys2Proof/Decode.lean ====
section
/-! DEFINITION. The decoder, total on any bytes and any transaction, rejecting by name; then the encoder; then the
decoder's reading of one row of spec/opcode_table.json. Rules: spec/30_encoding.md R55, R58 to R62, R67. -/

namespace Sys2Proof

/-! ### Inbound frames -/

/-- The row of a complete frame, by kind first and by the observed payload size second (spec/41_dispatcher.md R98). -/
def classify (f : Frame) : Instr :=
  if f.kind = kindPitchSettings then
    match f.payload with
    | [power, flags] => .rptPitchSettings power flags
    | payload => .sizeMismatchA f.length payload
  else if f.kind = kindRollSettings then
    match f.payload with
    | [power, flags] => .rptRollSettings power flags
    | payload => .sizeMismatchC f.length payload
  else if f.kind = kindPitchSpeed then
    match f.payload with
    | [b0, b1, b2, b3] => .rptPitchSpeed (le32 b0 b1 b2 b3)
    | payload => .sizeMismatchB f.length payload
  else if f.kind = kindRollSpeed then
    match f.payload with
    | [b0, b1, b2, b3] => .rptRollSpeed (le32 b0 b1 b2 b3)
    | payload => .sizeMismatchD f.length payload
  else if f.kind = kindDiagnostic then
    match f.payload with
    | [b0, b1, b2, b3] => .rptDiagnostic (le32 b0 b1 b2 b3)
    | payload => .sizeMismatchI f.length payload
  else .unrecognized f.kind f.length f.payload

/-- The instruction at the head of a received byte stream, and the bytes behind it (spec/30_encoding.md R61): a length
byte above 32 is header corruption, decided before any payload is looked at; the frame's end is known from the length
byte alone (R51). -/
def decodeFrame : List Byte → Except DecodeError (Instr × List Byte)
  | kind :: length :: rest =>
    if maxPayload < length.toNat then .ok (.hdrCorrupt kind length, rest)
    else if rest.length < length.toNat then .error .shortPayload
    else .ok (classify ⟨kind, length, rest.take length.toNat⟩, rest.drop length.toNat)
  | _ => .error .shortHeader

/-- The Frame a byte sequence is, where it is one (spec/10_state.md R18): the operand of DISPATCH. -/
def frameFromBytes : List Byte → Except DecodeError Frame
  | kind :: length :: payload =>
    if maxPayload < length.toNat then .error .lengthAboveCapacity
    else if payload.length < length.toNat then .error .shortPayload
    else if length.toNat < payload.length then .error .trailingBytes
    else .ok ⟨kind, length, payload⟩
  | _ => .error .shortHeader

/-! ### Commands (spec/30_encoding.md R62) -/

/-- `cmd_chan`: 0 pitch, 1 roll. -/
def channelOfBit (b : BitVec 1) : Channel := if b = 0#1 then .pitch else .roll

/-- The command on the command port: `cmd_op` 0 GetSettings, 1 SetSettings, 2 SetSpeed, 3 StoreToFlash; each field is
read only where R62 says so. -/
def decodeCommand (p : CmdPort) : Command :=
  if p.op = 0#2 then .getSettings (channelOfBit p.chan)
  else if p.op = 1#2 then .setSettings (channelOfBit p.chan) ⟨p.power, p.flags⟩
  else if p.op = 2#2 then .setSpeed (channelOfBit p.chan) p.speed
  else .storeToFlash

/-- The CMD row of a command (spec/30_encoding.md R56). -/
def commandRow : Command → Instr
  | .getSettings .pitch => .getSettingsPitch
  | .getSettings .roll => .getSettingsRoll
  | .setSettings .pitch cs => .setSettingsPitch cs.power cs.flags
  | .setSettings .roll cs => .setSettingsRoll cs.power cs.flags
  | .setSpeed .pitch v => .setSpeedPitch v
  | .setSpeed .roll v => .setSpeedRoll v
  | .storeToFlash => .storeToFlash

/-! ### Transactions -/

/-- The instruction of a transaction on a port (spec/43_link_ports.md R127). Only the operand of an internal DISPATCH
can be refused: the other ports carry nothing that is not an operation. -/
def decodePort : PortOp → Except DecodeError Instr
  | .rst => .ok .reset
  | .rx data => .ok (.rxpush data)
  | .framer => .ok .poll
  | .dispatcher bytes =>
    match frameFromBytes bytes with
    | .ok f => .ok (.dispatch f)
    | .error e => .error e
  | .poll => .ok .service
  | .cmd fields => .ok (.encode (decodeCommand fields))
  | .cmdRow fields => .ok (commandRow (decodeCommand fields))
  | .tx count => .ok (.txpop count)

/-- The instruction of a raw form: a frame taken whole, or a transaction. -/
def decode : Encoded → Except DecodeError Instr
  | .frame bytes =>
    match decodeFrame bytes with
    | .ok (i, []) => .ok i
    | .ok (_, _ :: _) => .error .trailingBytes
    | .error e => .error e
  | .port op => decodePort op

/-! ### The encoder, written from the same tables -/

/-- `cmd_chan` of a channel. -/
def bitOfChannel : Channel → BitVec 1
  | .pitch => 0#1
  | .roll => 1#1

/-- The command port's fields for a command; a field the command does not read is 0, and StoreToFlash is sent with
`cmd_chan = 0` (spec/30_encoding.md R62). -/
def encodeCommand : Command → CmdPort
  | .getSettings ch => { op := 0#2, chan := bitOfChannel ch, power := 0, flags := 0, speed := 0 }
  | .setSettings ch cs => { op := 1#2, chan := bitOfChannel ch, power := cs.power, flags := cs.flags, speed := 0 }
  | .setSpeed ch v => { op := 2#2, chan := bitOfChannel ch, power := 0, flags := 0, speed := v }
  | .storeToFlash => { op := 3#2, chan := 0#1, power := 0, flags := 0, speed := 0 }

/-- The raw form of an instruction. -/
def encode : Instr → Encoded
  | .hdrCorrupt kind length => .frame [kind, length]
  | .rptPitchSettings power flags => .frame [kindPitchSettings, settingsSize, power, flags]
  | .rptRollSettings power flags => .frame [kindRollSettings, settingsSize, power, flags]
  | .rptPitchSpeed v => .frame (kindPitchSpeed :: wordSize :: bytesLE32 v)
  | .rptRollSpeed v => .frame (kindRollSpeed :: wordSize :: bytesLE32 v)
  | .rptDiagnostic v => .frame (kindDiagnostic :: wordSize :: bytesLE32 v)
  | .sizeMismatchA length payload => .frame (kindPitchSettings :: length :: payload)
  | .sizeMismatchC length payload => .frame (kindRollSettings :: length :: payload)
  | .sizeMismatchB length payload => .frame (kindPitchSpeed :: length :: payload)
  | .sizeMismatchD length payload => .frame (kindRollSpeed :: length :: payload)
  | .sizeMismatchI length payload => .frame (kindDiagnostic :: length :: payload)
  | .unrecognized kind length payload => .frame (kind :: length :: payload)
  | .getSettingsPitch => .port (.cmdRow (encodeCommand (.getSettings .pitch)))
  | .getSettingsRoll => .port (.cmdRow (encodeCommand (.getSettings .roll)))
  | .setSettingsPitch power flags => .port (.cmdRow (encodeCommand (.setSettings .pitch ⟨power, flags⟩)))
  | .setSettingsRoll power flags => .port (.cmdRow (encodeCommand (.setSettings .roll ⟨power, flags⟩)))
  | .setSpeedPitch v => .port (.cmdRow (encodeCommand (.setSpeed .pitch v)))
  | .setSpeedRoll v => .port (.cmdRow (encodeCommand (.setSpeed .roll v)))
  | .storeToFlash => .port (.cmdRow (encodeCommand .storeToFlash))
  | .reset => .port .rst
  | .rxpush data => .port (.rx data)
  | .poll => .port .framer
  | .dispatch f => .port (.dispatcher f.bytes)
  | .service => .port .poll
  | .encode c => .port (.cmd (encodeCommand c))
  | .txpop count => .port (.tx count)

/-! ### One row of the opcode table (spec/30_encoding.md R67, log 21) -/

/-- The header word `{kind, length}` as the bytes of a stream: `hdr[15:8]` is wire byte 0, `hdr[7:0]` is wire byte 1,
and every payload byte the length asks for is 0. A corrupt header has no payload. -/
def headerBytes (w : Nat) : List Byte :=
  let length : Byte := BitVec.ofNat 8 w
  BitVec.ofNat 8 (w / 256) :: length ::
    (if maxPayload < length.toNat then [] else List.replicate length.toNat 0#8)

/-- The command port whose selector `cmd_sel[2:0] = {cmd_op, cmd_chan}` is the low three bits of `w`, its operand
fields 0. -/
def selectorFields (w : Nat) : CmdPort :=
  { op := BitVec.ofNat 2 (w / 2), chan := BitVec.ofNat 1 w, power := 0, flags := 0, speed := 0 }

/-- A row of 1 to 8 bits is a command selector, one of 9 to 16 bits a header word; the table gives a PORT row no bits,
so no word stands for one. -/
def decodeTableWord (nbits w : Nat) : Option Instr :=
  if nbits = 0 then none
  else if nbits ≤ 8 then (decodePort (.cmdRow (selectorFields w))).toOption
  else if nbits ≤ 16 then (decode (.frame (headerBytes w))).toOption
  else none

end Sys2Proof
end

