-- ==== Sys2Proof/Machine/State.lean ====
section
/-! DEFINITION. The state of one instance of the block as plain data (spec/10_state.md R10), the outputs it has produced,
and its value right after RESET (R27). -/

namespace Sys2Proof.Machine

/-- The parser state (spec/10_state.md R11). A partly arrived payload stays in `RXQ`: the pending frame is its header
only. -/
inductive ParserState where
  | awaitingHeader
  | awaitingPayload (kind length : Byte) (retryCount : Nat)
  deriving DecidableEq, Repr

/-- A decoded event (spec/10_state.md R21). -/
inductive Event where
  | settingsReport (channel : Channel) (power flags : Byte)
  | speedReadback (channel : Channel) (value : Word)
  | diagnostic (value : Word)
  deriving DecidableEq, Repr

/-- The four errors of the block (spec/60_exceptions.md R135). -/
inductive DiagCode where
  | headerCorruption
  | payloadStall
  | payloadSizeMismatch
  | unrecognizedKind
  deriving DecidableEq, Repr

/-- A diagnostic record: code, and the kind and length of the header concerned (spec/10_state.md R22,
spec/30_encoding.md R64). -/
structure Record where
  code : DiagCode
  kind : Byte
  length : Byte
  deriving DecidableEq, Repr

/-- What one POLL finds (spec/40_framer.md R83): the seven outcomes of R71, R73, R74 and R76 (one Frame), R75, R78, R79. -/
inductive PollOutcome where
  /-- R71: fewer than two bytes. -/
  | short
  /-- R73: a header with a length byte above 32 was taken. -/
  | corrupt (kind length : Byte) (rest : List Byte)
  /-- R74, R76: a whole frame was taken. -/
  | complete (frame : Frame) (rest : List Byte)
  /-- R75: a header was taken and its payload is not there yet. -/
  | await (kind length : Byte) (rest : List Byte)
  /-- R78: the retry budget is used up. -/
  | stall (kind length : Byte)
  /-- R79: keep waiting, with the incremented count. -/
  | retry (kind length : Byte) (retryCount : Nat)
  deriving DecidableEq, Repr

/-- One entry of the environment's schedule: a transaction, or one POLL with a DISPATCH if it returns a Frame, the
script line `poll` of spec/30_encoding.md R65, which runs the instruction that stands in the received stream. -/
inductive Slot where
  | stream
  | port (op : PortOp)
  deriving DecidableEq, Repr

/-- The state of one instance. `ps`, `rxq` and `txq` are the spec's state elements, `evt` and `log` its output traces;
the other five are the model's own (INVENTORY.md, State; log 1, 3, 4, 6, 7). -/
structure State where
  /-- The configuration; no operation writes it (spec/10_state.md R25). -/
  cfg : Config
  /-- A first RESET has been issued (spec/70_reset_and_hazards.md R163). -/
  booted : Bool
  /-- The parser state (spec/10_state.md R11). -/
  ps : ParserState
  /-- The receive queue, oldest byte first (spec/10_state.md R16). -/
  rxq : List Byte
  /-- The transmit queue, oldest byte first (spec/10_state.md R17). -/
  txq : List Byte
  /-- The events handed to the owner, oldest first (spec/10_state.md R21). -/
  evt : List Event
  /-- The diagnostic records, oldest first (spec/10_state.md R22). -/
  log : List Record
  /-- The bytes that left by port `tx`, oldest first (spec/43_link_ports.md R124). -/
  wire : List Byte
  /-- The value the last POLL returned and DISPATCH has not consumed (spec/40_framer.md R70, spec/10_state.md R18). -/
  polled : Option Frame
  /-- The operations the environment has still to issue, in order (spec/20_memory.md R39). -/
  script : List Slot
  deriving DecidableEq, Repr

/-- The block raises no fault: "The block has no fault state, no stuck state and no halted state"
(spec/60_exceptions.md R149). Nothing raises one, so there is no constructor; that is safe. -/
inductive Fault where
  deriving DecidableEq, Repr

/-- Situations the spec gives no meaning (`refuse`, spec/93_implementation_defined.md part 2). Each is safe: the model
stops where the spec promises nothing. -/
inductive Refusal where
  /-- An instruction without a meaning yet. No arm raises it. Safe. -/
  | notModelled (mnemonic : String)
  /-- Raised by the step on a transaction the decoder refuses: the operand of an internal DISPATCH that is no Frame
  (spec/10_state.md R18, spec/41_dispatcher.md R90). Safe. -/
  | undecodable (error : DecodeError)
  /-- Raised by the step on any operation but RESET before the first RESET (R163, U8). Safe. -/
  | beforeReset
  /-- Raised by the step on a DISPATCH of anything but the Frame the last POLL returned, and on another POLL, alone, in a
  SERVICE or in the fetch from the stream, while that Frame is not dispatched: DISPATCH is applied to frames in the order
  POLL returned them (spec/10_state.md R18, spec/20_memory.md R42). Safe. -/
  | outOfPollOrder
  /-- Raised by RXPUSH when the byte would exceed `RXQ_CAP` (spec/20_memory.md R46, U3). Safe. -/
  | rxqFull
  /-- Raised by ENCODE and the CMD rows when the frame would exceed `TXQ_CAP` (spec/20_memory.md R46, U4). Safe. -/
  | txqFull
  /-- Raised by TXPOP(n) with `n > len(TXQ)` (spec/43_link_ports.md R124, U5). Safe. -/
  | txpopBeyondQueue
  deriving DecidableEq, Repr

/-- The outcome of an operation. -/
abbrev Result := Host.Outcome State Fault Refusal

/-- The machine right after the RESET of a new instance (spec/10_state.md R27): `ps` awaiting a header, both queues
empty. Nothing has been output, and no operation is scheduled (log 2, 3, 4, 19, 29). -/
def State.reset : State where
  cfg := Config.reference
  booted := true
  ps := .awaitingHeader
  rxq := []
  txq := []
  evt := []
  log := []
  wire := []
  polled := none
  script := []

end Sys2Proof.Machine
end

