-- ==== Sys2Proof/Machine/Ops.lean ====
section
/-! DEFINITION. The shared operations over the state: queue access (spec/20_memory.md R33), the two output traces, and
the raising of an error, which is the block's only trap entry (spec/60_exceptions.md R143). There is no return from it
(R145). -/

namespace Sys2Proof.Machine

/-- `ps <- p`. -/
def State.setPs (p : ParserState) (s : State) : State := { s with ps := p }

/-- `RXQ <- q`, what is left after a take from the head. -/
def State.setRxq (q : List Byte) (s : State) : State := { s with rxq := q }

/-- The value a POLL returns (log 6). -/
def State.setPolled (r : Option Frame) (s : State) : State := { s with polled := r }

/-- What the environment has still to issue (log 4). -/
def State.setScript (script : List Slot) (s : State) : State := { s with script := script }

/-- `emit e`: append to `EVT` (spec/10_state.md R21). -/
def State.emit (e : Event) (s : State) : State := { s with evt := s.evt ++ [e] }

/-- Append one record to `LOG` (spec/10_state.md R22). -/
def State.record (r : Record) (s : State) : State := { s with log := s.log ++ [r] }

/-- `QAppend(RXQ, [b])`. -/
def State.rxAppend (b : Byte) (s : State) : State := { s with rxq := s.rxq ++ [b] }

/-- `QAppend(TXQ, bytes)`, one indivisible append (spec/42_encoder.md R116). -/
def State.txAppend (bytes : List Byte) (s : State) : State := { s with txq := s.txq ++ bytes }

/-- `QTake(TXQ, n)`: the bytes taken go out on the wire in that order (spec/43_link_ports.md R124). -/
def State.txTake (n : Nat) (s : State) : State :=
  { s with txq := s.txq.drop n, wire := s.wire ++ s.txq.take n }

/-- The recovery of a framer error: `QFlush(RXQ); ps <- AwaitingHeader` (spec/40_framer.md R73, R78). -/
def State.recover (s : State) : State := { s with rxq := [], ps := .awaitingHeader }

/-- The two errors whose recovery flushes (spec/60_exceptions.md R135). -/
def DiagCode.flushes : DiagCode → Bool
  | .headerCorruption => true
  | .payloadStall => true
  | .payloadSizeMismatch => false
  | .unrecognizedKind => false

/-- `raise <Error>(kind, length)`: one record, then the recovery of that error; no state is saved, control goes nowhere
(spec/60_exceptions.md R143). -/
def State.raise (code : DiagCode) (kind length : Byte) (s : State) : State :=
  if code.flushes then (s.record ⟨code, kind, length⟩).recover else s.record ⟨code, kind, length⟩

/-- The state part of RESET (spec/70_reset_and_hazards.md R161, R162): the parser and both queues; the configuration,
the outputs and the environment are untouched (log 3, 6, 19). -/
def State.resetBlock (s : State) : State :=
  { s with booted := true, ps := .awaitingHeader, rxq := [], txq := [], polled := none }

/-- ENCODE's effect: append a whole frame to `TXQ`, where the capacity holds it (spec/42_encoder.md R105,
spec/20_memory.md R46). -/
def State.transmit (bytes : List Byte) (s : State) : Result :=
  if withinCap s.cfg.txqCap (s.txq.length + bytes.length) then .next (s.txAppend bytes) else .refused .txqFull

/-- Does the operation keep the order of POLL and DISPATCH? A Frame exists only between the POLL that returned it and the
DISPATCH that follows (spec/10_state.md R18), and DISPATCH is applied to frames in the order POLL returned them
(spec/20_memory.md R42): DISPATCH takes the Frame last returned, and nothing that POLLs (POLL, SERVICE, a FRAME_RX row
fetched from the stream) comes before it. Every other operation may come in between (R39, R45). -/
def State.inOrder (s : State) : Instr → Bool
  | .dispatch f => decide (s.polled = some f)
  | .poll => s.polled.isNone
  | .service => s.polled.isNone
  | .hdrCorrupt _ _ => s.polled.isNone
  | .rptPitchSettings _ _ => s.polled.isNone
  | .rptRollSettings _ _ => s.polled.isNone
  | .rptPitchSpeed _ => s.polled.isNone
  | .rptRollSpeed _ => s.polled.isNone
  | .rptDiagnostic _ => s.polled.isNone
  | .sizeMismatchA _ _ => s.polled.isNone
  | .sizeMismatchC _ _ => s.polled.isNone
  | .sizeMismatchB _ _ => s.polled.isNone
  | .sizeMismatchD _ _ => s.polled.isNone
  | .sizeMismatchI _ _ => s.polled.isNone
  | .unrecognized _ _ _ => s.polled.isNone
  | .getSettingsPitch => true
  | .getSettingsRoll => true
  | .setSettingsPitch _ _ => true
  | .setSettingsRoll _ _ => true
  | .setSpeedPitch _ => true
  | .setSpeedRoll _ => true
  | .storeToFlash => true
  | .reset => true
  | .rxpush _ => true
  | .encode _ => true
  | .txpop _ => true

/-- Whether the environment may issue an operation in this state, and if not, why: before the first RESET only RESET
(spec/70_reset_and_hazards.md R163), and POLL and DISPATCH in their order (`State.inOrder`; log 3, 9). -/
def State.refusal (s : State) (i : Instr) : Option Refusal :=
  if s.booted = false ∧ i ≠ .reset then some .beforeReset
  else if s.inOrder i then none
  else some .outOfPollOrder

end Sys2Proof.Machine
end

