-- ==== Sys2Proof/Machine/Dispatcher.lean ====
section
/-! DEFINITION. The Dispatcher (spec/41_dispatcher.md): DISPATCH of a frame, and the eleven FRAME_RX rows it decodes. Each
appends one event or one record and touches neither parser nor queues (R99); the frame is consumed (spec/10_state.md R28). -/

namespace Sys2Proof.Machine

/-- A frame was decoded: hand its event to the owner (spec/41_dispatcher.md R91 to R95). -/
def State.deliver (e : Event) (s : State) : State := (s.emit e).setPolled none

/-- A frame was rejected: one record, no event (spec/41_dispatcher.md R96, R97). -/
def State.reject (code : DiagCode) (kind length : Byte) (s : State) : State :=
  (s.raise code kind length).setPolled none

/-- The settings layout, two bytes, power then flags (spec/30_encoding.md R53); another size is a mismatch. -/
def State.settingsFrame (channel : Channel) (f : Frame) (s : State) : State :=
  match f.payload with
  | [power, flags] => s.deliver (.settingsReport channel power flags)
  | _ => s.reject .payloadSizeMismatch f.kind f.length

/-- The word layout, four bytes, least significant first (spec/30_encoding.md R53); another size is a mismatch. -/
def State.wordFrame (event : Word → Event) (f : Frame) (s : State) : State :=
  match f.payload with
  | [b0, b1, b2, b3] => s.deliver (event (le32 b0 b1 b2 b3))
  | _ => s.reject .payloadSizeMismatch f.kind f.length

/-- The Dispatcher's table, by kind first and size second (spec/41_dispatcher.md R90 to R98). -/
def State.dispatch (f : Frame) (s : State) : State :=
  if f.kind = kindPitchSettings then s.settingsFrame .pitch f
  else if f.kind = kindRollSettings then s.settingsFrame .roll f
  else if f.kind = kindPitchSpeed then s.wordFrame (.speedReadback .pitch) f
  else if f.kind = kindRollSpeed then s.wordFrame (.speedReadback .roll) f
  else if f.kind = kindDiagnostic then s.wordFrame .diagnostic f
  else s.reject .unrecognizedKind f.kind f.length

/-- DISPATCH (spec/41_dispatcher.md R90). -/
def execDispatch (f : Frame) (s : State) : Result := .next (s.dispatch f)

/-- RPT_PITCH_SETTINGS (R91). -/
def execRptPitchSettings (power flags : Byte) (s : State) : Result :=
  .next (s.deliver (.settingsReport .pitch power flags))

/-- RPT_ROLL_SETTINGS (R92). -/
def execRptRollSettings (power flags : Byte) (s : State) : Result :=
  .next (s.deliver (.settingsReport .roll power flags))

/-- RPT_PITCH_SPEED (R93). -/
def execRptPitchSpeed (value : Word) (s : State) : Result := .next (s.deliver (.speedReadback .pitch value))

/-- RPT_ROLL_SPEED (R94). -/
def execRptRollSpeed (value : Word) (s : State) : Result := .next (s.deliver (.speedReadback .roll value))

/-- RPT_DIAGNOSTIC (R95). -/
def execRptDiagnostic (value : Word) (s : State) : Result := .next (s.deliver (.diagnostic value))

/-- SIZE_MISMATCH_A (R96). The payload was consumed by the framer and is discarded. -/
def execSizeMismatchA (length : Byte) (_payload : List Byte) (s : State) : Result :=
  .next (s.reject .payloadSizeMismatch kindPitchSettings length)

/-- SIZE_MISMATCH_C (R96). -/
def execSizeMismatchC (length : Byte) (_payload : List Byte) (s : State) : Result :=
  .next (s.reject .payloadSizeMismatch kindRollSettings length)

/-- SIZE_MISMATCH_B (R96). -/
def execSizeMismatchB (length : Byte) (_payload : List Byte) (s : State) : Result :=
  .next (s.reject .payloadSizeMismatch kindPitchSpeed length)

/-- SIZE_MISMATCH_D (R96). -/
def execSizeMismatchD (length : Byte) (_payload : List Byte) (s : State) : Result :=
  .next (s.reject .payloadSizeMismatch kindRollSpeed length)

/-- SIZE_MISMATCH_I (R96). -/
def execSizeMismatchI (length : Byte) (_payload : List Byte) (s : State) : Result :=
  .next (s.reject .payloadSizeMismatch kindDiagnostic length)

/-- UNRECOGNIZED (R97). The payload is discarded unread. -/
def execUnrecognized (kind length : Byte) (_payload : List Byte) (s : State) : Result :=
  .next (s.reject .unrecognizedKind kind length)

end Sys2Proof.Machine
end

