-- ==== Sys2Proof/Machine/Encoder.lean ====
section
/-! DEFINITION. The Command Encoder (spec/42_encoder.md): ENCODE of a command, and the seven CMD rows. Each appends one
whole frame to TXQ and does nothing else (R105). -/

namespace Sys2Proof.Machine

/-- ENCODE(c) (spec/42_encoder.md R105). -/
def execEncode (c : Command) (s : State) : Result := s.transmit (c.enc s.cfg.rollSpeed)

/-- GET_SETTINGS_PITCH (R106). -/
def execGetSettingsPitch (s : State) : Result := s.transmit [kindGetPitchSettings, 0x00#8]

/-- GET_SETTINGS_ROLL (R107). -/
def execGetSettingsRoll (s : State) : Result := s.transmit [kindGetRollSettings, 0x00#8]

/-- SET_SETTINGS_PITCH (R108). -/
def execSetSettingsPitch (power flags : Byte) (s : State) : Result :=
  s.transmit [kindSetPitchSettings, 0x02#8, power, flags]

/-- SET_SETTINGS_ROLL (R109). -/
def execSetSettingsRoll (power flags : Byte) (s : State) : Result :=
  s.transmit [kindSetRollSettings, 0x02#8, power, flags]

/-- SET_SPEED_PITCH (R110). -/
def execSetSpeedPitch (value : Word) (s : State) : Result :=
  s.transmit ([kindSetPitchSpeed, 0x04#8] ++ bytesLE32 value)

/-- SET_SPEED_ROLL (R111): the kind byte is the configuration's. -/
def execSetSpeedRoll (value : Word) (s : State) : Result :=
  s.transmit ([s.cfg.rollSpeed.toByte, 0x04#8] ++ bytesLE32 value)

/-- STORE_TO_FLASH (R112): sent whenever asked, whatever was sent before (R115). -/
def execStoreToFlash (s : State) : Result := s.transmit [kindStoreToFlash, 0x00#8]

end Sys2Proof.Machine
end

