-- ==== Sys2Proof/Machine/Framer.lean ====
section
/-! DEFINITION. The Framing State Machine (spec/40_framer.md): one POLL, the row HDR_CORRUPT, and how the step fetches an
instruction from the received stream. -/

namespace Sys2Proof.Machine

/-- Which case of POLL applies, decided by `ps` and `RXQ` alone (spec/40_framer.md R80). -/
def framer (ps : ParserState) (rxq : List Byte) : PollOutcome :=
  match ps with
  | .awaitingHeader =>
    match rxq with
    | kind :: length :: rest =>
      if maxPayload < length.toNat then .corrupt kind length rest
      else if length.toNat ≤ rest.length then
        .complete ⟨kind, length, rest.take length.toNat⟩ (rest.drop length.toNat)
      else .await kind length rest
    | _ => .short
  | .awaitingPayload kind length r =>
    if length.toNat ≤ rxq.length then .complete ⟨kind, length, rxq.take length.toNat⟩ (rxq.drop length.toNat)
    else if retryLimit < r + 1 then .stall kind length
    else .retry kind length (r + 1)

/-- The effect of a POLL on the state, its returned value in `polled` (spec/40_framer.md R71 to R79). -/
def State.poll (s : State) : State :=
  match framer s.ps s.rxq with
  | .short => s.setPolled none
  | .corrupt kind length _ => (s.raise .headerCorruption kind length).setPolled none
  | .complete f rest => ((s.setRxq rest).setPs .awaitingHeader).setPolled (some f)
  | .await kind length rest => ((s.setRxq rest).setPs (.awaitingPayload kind length 0)).setPolled none
  | .stall kind length => (s.raise .payloadStall kind length).setPolled none
  | .retry kind length r => (s.setPs (.awaitingPayload kind length r)).setPolled none

/-- POLL (spec/40_framer.md R70). -/
def execPoll (s : State) : Result := .next s.poll

/-- HDR_CORRUPT: the header has been taken; log, flush, await a header (spec/40_framer.md R73). -/
def execHdrCorrupt (kind length : Byte) (s : State) : Result :=
  .next ((s.raise .headerCorruption kind length).setPolled none)

/-- What the step finds to do. -/
inductive Fetch where
  /-- Nothing is scheduled. -/
  | idle
  /-- An instruction, and the state after its bytes or its transaction have been taken. -/
  | run (i : Instr) (s : State)
  /-- The stream was polled and gave no instruction. -/
  | noFrame (s : State)
  /-- The decoder refuses. -/
  | rejected (e : DecodeError)
  deriving DecidableEq, Repr

/-- Fetch from the received stream: the framer cuts the next frame off the head of `RXQ`, with the pending header if
there is one, and its row is the instruction; a POLL that returns `None` is the whole step (log 5). -/
def fetchStream (s : State) : Fetch :=
  match framer s.ps s.rxq with
  | .corrupt kind length rest => .run (.hdrCorrupt kind length) (s.setRxq rest)
  | .complete f rest => .run (classify f) ((s.setRxq rest).setPs .awaitingHeader)
  | .short => .noFrame s.poll
  | .await _ _ _ => .noFrame s.poll
  | .stall _ _ => .noFrame s.poll
  | .retry _ _ _ => .noFrame s.poll

/-- Fetch the next scheduled operation (log 4). -/
def fetch (s : State) : Fetch :=
  match s.script with
  | [] => .idle
  | .stream :: rest => fetchStream (s.setScript rest)
  | .port op :: rest =>
    match decodePort op with
    | .ok i => .run i (s.setScript rest)
    | .error e => .rejected e

end Sys2Proof.Machine
end

