-- ==== Sys2Proof/Machine/Link.lean ====
section
/-! DEFINITION. The link-side operations and RESET (spec/43_link_ports.md, spec/70_reset_and_hazards.md). -/

namespace Sys2Proof.Machine

/-- RESET (spec/70_reset_and_hazards.md R161). -/
def execReset (s : State) : Result := .next s.resetBlock

/-- RXPUSH(b) (spec/43_link_ports.md R120): no filter (R121); over a finite capacity it has no meaning (R46). -/
def execRxpush (data : Byte) (s : State) : Result :=
  if withinCap s.cfg.rxqCap (s.rxq.length + 1) then .next (s.rxAppend data) else .refused .rxqFull

/-- SERVICE's loop, if it ends within `n` POLLs (spec/43_link_ports.md R122). -/
def State.serviceWithin : Nat → State → Option State
  | 0, _ => none
  | n + 1, s =>
    match s.poll.polled with
    | none => some s.poll
    | some f => State.serviceWithin n (s.poll.dispatch f)

/-- SERVICE run to its end. Its loop always ends within `len(RXQ) + 2` POLLs
(`Sys2Proof.Laws.serviceWithin_isSome`), so the default is never taken; in reachable states `len(RXQ) + 1` is enough
(R123, log 24). -/
def State.service (s : State) : State := (State.serviceWithin (s.rxq.length + 2) s).getD s

/-- SERVICE (spec/43_link_ports.md R122). -/
def execService (s : State) : Result := .next s.service

/-- TXPOP(n) (spec/43_link_ports.md R124): it may cut a frame in two; beyond the queue it has no meaning. -/
def execTxpop (count : Nat) (s : State) : Result :=
  if count ≤ s.txq.length then .next (s.txTake count) else .refused .txpopBeyondQueue

end Sys2Proof.Machine
end

