-- ==== Sys2Proof/Machine/Dispatch.lean ====
section
/-! DEFINITION. The meaning of every instruction, one arm for each row of spec/opcode_table.json. -/

namespace Sys2Proof.Machine

def exec (i : Instr) (s : State) : Host.Outcome State Fault Refusal :=
  match i with
  | .hdrCorrupt kind length => Sys2Proof.Machine.execHdrCorrupt kind length s
  | .rptPitchSettings power flags => Sys2Proof.Machine.execRptPitchSettings power flags s
  | .rptRollSettings power flags => Sys2Proof.Machine.execRptRollSettings power flags s
  | .rptPitchSpeed value => Sys2Proof.Machine.execRptPitchSpeed value s
  | .rptRollSpeed value => Sys2Proof.Machine.execRptRollSpeed value s
  | .rptDiagnostic value => Sys2Proof.Machine.execRptDiagnostic value s
  | .sizeMismatchA length payload => Sys2Proof.Machine.execSizeMismatchA length payload s
  | .sizeMismatchC length payload => Sys2Proof.Machine.execSizeMismatchC length payload s
  | .sizeMismatchB length payload => Sys2Proof.Machine.execSizeMismatchB length payload s
  | .sizeMismatchD length payload => Sys2Proof.Machine.execSizeMismatchD length payload s
  | .sizeMismatchI length payload => Sys2Proof.Machine.execSizeMismatchI length payload s
  | .unrecognized kind length payload => Sys2Proof.Machine.execUnrecognized kind length payload s
  | .getSettingsPitch => Sys2Proof.Machine.execGetSettingsPitch s
  | .getSettingsRoll => Sys2Proof.Machine.execGetSettingsRoll s
  | .setSettingsPitch power flags => Sys2Proof.Machine.execSetSettingsPitch power flags s
  | .setSettingsRoll power flags => Sys2Proof.Machine.execSetSettingsRoll power flags s
  | .setSpeedPitch value => Sys2Proof.Machine.execSetSpeedPitch value s
  | .setSpeedRoll value => Sys2Proof.Machine.execSetSpeedRoll value s
  | .storeToFlash => Sys2Proof.Machine.execStoreToFlash s
  | .reset => Sys2Proof.Machine.execReset s
  | .rxpush data => Sys2Proof.Machine.execRxpush data s
  | .poll => Sys2Proof.Machine.execPoll s
  | .dispatch frame => Sys2Proof.Machine.execDispatch frame s
  | .service => Sys2Proof.Machine.execService s
  | .encode command => Sys2Proof.Machine.execEncode command s
  | .txpop count => Sys2Proof.Machine.execTxpop count s

end Sys2Proof.Machine
end

