-- ==== Sys2Proof/Machine/Step.lean ====
section
/-! DEFINITION. One step of the machine: fetch the next scheduled operation, from the environment's transactions or from
the received stream, and run it (log 4, 5). -/

namespace Sys2Proof.Machine

/-- One step. With nothing scheduled nothing happens: no operation of the block waits for another, and the block does
nothing on its own (spec/20_memory.md R38, spec/60_exceptions.md R148). -/
def step (s : State) : Host.Outcome State Fault Refusal :=
  match fetch s with
  | .idle => .next s
  | .run i s' =>
    match s.refusal i with
    | none => exec i s'
    | some r => .refused r
  | .noFrame s' =>
    match s.refusal .poll with
    | none => .next s'
    | some r => .refused r
  | .rejected e => .refused (.undecodable e)

/-- `s` with the instruction of one row of the opcode table where the step fetches its next instruction: a command
selector as the next transaction on port `cmd`; a header word, its payload bytes 0, at the head of the received stream,
with the parser awaiting a header, no Frame left to dispatch and the stream the next thing polled (log 4, 21). -/
def State.withFetchWord (s : State) (nbits w : Nat) : State :=
  if nbits = 0 then s
  else if nbits ≤ 8 then
    { s with booted := true, script := .port (.cmdRow (selectorFields w)) :: s.script }
  else if nbits ≤ 16 then
    { s with booted := true, ps := .awaitingHeader, rxq := headerBytes w ++ s.rxq,
             polled := none, script := .stream :: s.script }
  else s

end Sys2Proof.Machine
end

