-- ==== Sys2Proof/Machine/Flags.lean ====
section
/-! DEFINITION. The block has no condition flags and no status register (spec/10_state.md R25): no operation computes
a flag. What is called flags here is the second byte of a ChannelSettings, which the block carries as a raw byte and
never interprets (R19); its named bits are for the owner (spec/30_encoding.md R53, decision D9, log 17). -/

namespace Sys2Proof

/-- `FLAG_REVERSE_BIT` (spec/00_scope.md R4). -/
def flagReverseBit : Nat := 0
/-- `FLAG_USE_TRANSFER_CURVE_BIT` (spec/00_scope.md R4). -/
def flagUseTransferCurveBit : Nat := 1
/-- `FLAG_DISABLED_BIT` (spec/00_scope.md R4). -/
def flagDisabledBit : Nat := 2

/-- The flag `reverse`. -/
def ChannelSettings.reverse (cs : ChannelSettings) : Bool := cs.flags.getLsbD flagReverseBit
/-- The flag `use_transfer_curve`. -/
def ChannelSettings.useTransferCurve (cs : ChannelSettings) : Bool := cs.flags.getLsbD flagUseTransferCurveBit
/-- The flag `disabled`. -/
def ChannelSettings.disabled (cs : ChannelSettings) : Bool := cs.flags.getLsbD flagDisabledBit

end Sys2Proof
end

