-- ==== Sys2Proof/Machine/Ports.lean ====
section
/-! DEFINITION. The bit-level forms of the outputs and of the parser state, for an implementation in registers
(spec/30_encoding.md R63, R64, spec/10_state.md R13). No operation of the block reads them (log 18, 26). -/

namespace Sys2Proof.Machine

/-- The event port (spec/30_encoding.md R63). -/
structure EvtPort where
  tag : BitVec 2
  chan : BitVec 1
  data : Word
  deriving DecidableEq, Repr

/-- The event port's reading of one event: tag 0 SettingsReport, 1 SpeedReadback, 2 Diagnostic; settings data is power in
bits 7..0, flags in bits 15..8, the rest 0. -/
def Event.port : Event → EvtPort
  | .settingsReport ch power flags => { tag := 0#2, chan := bitOfChannel ch, data := 0#16 ++ flags ++ power }
  | .speedReadback ch value => { tag := 1#2, chan := bitOfChannel ch, data := value }
  | .diagnostic value => { tag := 2#2, chan := 0#1, data := value }

/-- `diag_code` (spec/60_exceptions.md R135). -/
def DiagCode.number : DiagCode → BitVec 3
  | .headerCorruption => 1#3
  | .payloadStall => 2#3
  | .payloadSizeMismatch => 3#3
  | .unrecognizedKind => 4#3

/-- The diagnostic port (spec/30_encoding.md R64). -/
structure DiagPort where
  code : BitVec 3
  kind : Byte
  length : Byte
  deriving DecidableEq, Repr

/-- The diagnostic port's reading of one record. -/
def Record.port (r : Record) : DiagPort := { code := r.code.number, kind := r.kind, length := r.length }

/-- The registers of the parser state (spec/10_state.md R13). -/
structure PsRegs where
  state : BitVec 1
  kind : Byte
  len : BitVec 6
  retry : BitVec 2
  deriving DecidableEq, Repr

/-- The registers hold a parser state. While it is `AwaitingHeader` the other three registers may hold any value
(spec/10_state.md R13, U7). -/
def PsRegs.holds (r : PsRegs) : ParserState → Prop
  | .awaitingHeader => r.state = 0#1
  | .awaitingPayload kind length retry =>
    r.state = 1#1 ∧ r.kind = kind ∧ r.len.toNat = length.toNat ∧ r.retry.toNat = retry

end Sys2Proof.Machine
end

