-- ==== Sys2Proof/Machine/Script.lean ====
section
/-! DEFINITION. The transaction script of spec/30_encoding.md R65 and one iteration of the worker's loop
(spec/43_link_ports.md R126), as entries of the schedule. -/

namespace Sys2Proof.Machine

/-- One line of a transaction script (spec/30_encoding.md R65). -/
inductive ScriptLine where
  | reset
  | rx (bytes : List Byte)
  | service
  | poll
  | cmd (command : Command)
  | txpop (count : Nat)
  deriving DecidableEq, Repr

/-- The operations of a line: one RXPUSH a byte, left to right; every other line is one entry. -/
def ScriptLine.slots : ScriptLine → List Slot
  | .reset => [.port .rst]
  | .rx bytes => bytes.map fun b => .port (.rx b)
  | .service => [.port .poll]
  | .poll => [.stream]
  | .cmd c => [.port (.cmd (encodeCommand c))]
  | .txpop n => [.port (.tx n)]

/-- One iteration of the worker's loop: at most one TXPOP, then zero or more RXPUSH, then one SERVICE
(spec/43_link_ports.md R126). -/
def workerIteration (written : Option Nat) (received : List Byte) : List Slot :=
  (match written with
    | none => []
    | some n => ScriptLine.slots (.txpop n)) ++ ScriptLine.slots (.rx received) ++ ScriptLine.slots .service

end Sys2Proof.Machine
end

