-- ==== Sys2Proof/Safety.lean ====
section
/-! DEFINITION. The words claims are stated in: the invariant between operations, the two sides and the contexts of the
operations, sequences of operations, and the owner's mirror as a function of the events. -/

namespace Sys2Proof.Machine

/-- Between two operations a pending header has a length 1..32 and a count 0..2 (spec/10_state.md R12). -/
def ParserState.wf : ParserState → Bool
  | .awaitingHeader => true
  | .awaitingPayload _ length retry =>
    decide (1 ≤ length.toNat) && decide (length.toNat ≤ maxPayload) && decide (retry ≤ retryLimit)

/-- The bytes of the pending header, which stand in front of `RXQ` in the received stream (spec/10_state.md R11, R14). -/
def ParserState.pending : ParserState → List Byte
  | .awaitingHeader => []
  | .awaitingPayload kind length _ => [kind, length]

/-- The range of a record's two info bytes (spec/30_encoding.md R64, spec/60_exceptions.md R135). -/
def Record.wf (r : Record) : Bool :=
  match r.code with
  | .headerCorruption => decide (maxPayload < r.length.toNat)
  | .payloadStall => decide (1 ≤ r.length.toNat) && decide (r.length.toNat ≤ maxPayload)
  | .payloadSizeMismatch =>
    decide (r.length.toNat ≤ maxPayload) &&
      match expectedSize r.kind with
      | some n => decide (r.length ≠ n)
      | none => false
  | .unrecognizedKind => decide (r.length.toNat ≤ maxPayload) && decide (expectedSize r.kind = none)

/-- The bytes received and not yet dispatched or lost, oldest first: a Frame that POLL returned and DISPATCH has still to
take, the pending header, and `RXQ` (spec/10_state.md R11, R18, spec/20_memory.md R42). -/
def State.inbound (s : State) : List Byte :=
  (match s.polled with
    | some f => f.bytes
    | none => []) ++ s.ps.pending ++ s.rxq

/-- What holds between two operations: a legal parser state, queues within their capacities, a returned frame that is a
Frame, and records in their ranges. -/
abbrev State.Inv (s : State) : Prop :=
  s.ps.wf = true ∧ withinCap s.cfg.rxqCap s.rxq.length = true ∧ withinCap s.cfg.txqCap s.txq.length = true ∧
    s.polled.all Frame.wf = true ∧ s.log.all Record.wf = true

/-- The two sides of the block (spec/20_memory.md R44). -/
inductive Side where
  | receive
  | transmit
  | both
  deriving DecidableEq, Repr

/-- Which side an operation works on; only RESET touches both (spec/20_memory.md R44). -/
def side : Instr → Side
  | .hdrCorrupt _ _ => .receive
  | .rptPitchSettings _ _ => .receive
  | .rptRollSettings _ _ => .receive
  | .rptPitchSpeed _ => .receive
  | .rptRollSpeed _ => .receive
  | .rptDiagnostic _ => .receive
  | .sizeMismatchA _ _ => .receive
  | .sizeMismatchC _ _ => .receive
  | .sizeMismatchB _ _ => .receive
  | .sizeMismatchD _ _ => .receive
  | .sizeMismatchI _ _ => .receive
  | .unrecognized _ _ _ => .receive
  | .getSettingsPitch => .transmit
  | .getSettingsRoll => .transmit
  | .setSettingsPitch _ _ => .transmit
  | .setSettingsRoll _ _ => .transmit
  | .setSpeedPitch _ => .transmit
  | .setSpeedRoll _ => .transmit
  | .storeToFlash => .transmit
  | .reset => .both
  | .rxpush _ => .receive
  | .poll => .receive
  | .dispatch _ => .receive
  | .service => .receive
  | .encode _ => .transmit
  | .txpop _ => .transmit

/-- Who issues an operation (spec/43_link_ports.md R129). -/
inductive Context where
  | owner
  | worker
  | connect
  deriving DecidableEq, Repr

/-- The context that issues an operation (spec/43_link_ports.md R129, spec/60_exceptions.md R150). -/
def context (i : Instr) : Context :=
  match side i, i with
  | .both, _ => .connect
  | .receive, _ => .worker
  | .transmit, .txpop _ => .worker
  | .transmit, _ => .owner

/-- A sequence of operations, one after the other (spec/20_memory.md R39). -/
def runAll : List Instr → State → Result
  | [], s => .next s
  | i :: is, s =>
    match exec i s with
    | .next t => runAll is t
    | .fault r => .fault r
    | .refused r => .refused r

/-- The bytes an operation puts into `TXQ`. -/
def txBytes (k : RollSpeedKind) : Instr → List Byte
  | .getSettingsPitch => Command.enc k (.getSettings .pitch)
  | .getSettingsRoll => Command.enc k (.getSettings .roll)
  | .setSettingsPitch power flags => Command.enc k (.setSettings .pitch ⟨power, flags⟩)
  | .setSettingsRoll power flags => Command.enc k (.setSettings .roll ⟨power, flags⟩)
  | .setSpeedPitch v => Command.enc k (.setSpeed .pitch v)
  | .setSpeedRoll v => Command.enc k (.setSpeed .roll v)
  | .storeToFlash => Command.enc k .storeToFlash
  | .encode c => c.enc k
  | .hdrCorrupt _ _ => []
  | .rptPitchSettings _ _ => []
  | .rptRollSettings _ _ => []
  | .rptPitchSpeed _ => []
  | .rptRollSpeed _ => []
  | .rptDiagnostic _ => []
  | .sizeMismatchA _ _ => []
  | .sizeMismatchC _ _ => []
  | .sizeMismatchB _ _ => []
  | .sizeMismatchD _ _ => []
  | .sizeMismatchI _ _ => []
  | .unrecognized _ _ _ => []
  | .reset => []
  | .rxpush _ => []
  | .poll => []
  | .dispatch _ => []
  | .service => []
  | .txpop _ => []

/-- The bytes of one chunk, pushed one by one. -/
def pushAll (bytes : List Byte) : List Instr := bytes.map .rxpush

/-- A chunk of bytes and then a number of SERVICEs (spec/40_framer.md R86). -/
def chunkOps (chunk : List Byte × Nat) : List Instr := pushAll chunk.1 ++ List.replicate chunk.2 .service

/-- The events the owner sees, folded into the last settings report of a channel: the mirror of
spec/10_state.md R24. It is the owner's, no part of the block (log 22). -/
def mirror (channel : Channel) : List Event → Option ChannelSettings
  | [] => none
  | e :: es =>
    match mirror channel es with
    | some cs => some cs
    | none =>
      match e with
      | .settingsReport ch power flags => if ch = channel then some ⟨power, flags⟩ else none
      | .speedReadback _ _ => none
      | .diagnostic _ => none

end Sys2Proof.Machine
end

