-- ==== Sys2Proof/Certificates/Slice0/Obligations.lean ====
section
/-! DEFINITION. The statements for the provers. Each is about the machine; "log n" names notes/assumptions/n.md, and a
field `polled`, `booted`, `script`, `wire` or `cfg` in a statement is the model's own (log 1, 3, 4, 6, 7). -/

open Sys2Proof Sys2Proof.Machine

/-! ### Reset -/

/-- spec/10_state.md section 8 (the spec's decisions D14, D15; log 19): after RESET the parser awaits a header and both
queues are empty; a new instance has output nothing (log 29). -/
def Obligations.ResetLeavesParserAwaitingAndQueuesEmpty : Prop :=
  State.reset.ps = .awaitingHeader ∧ State.reset.rxq = [] ∧ State.reset.txq = [] ∧
    State.reset.evt = [] ∧ State.reset.log = [] ∧ State.reset.wire = []

/-- The invariant between operations (log 28) holds right after RESET. -/
def Obligations.ResetStateMeetsInvariant : Prop := State.reset.Inv

/-- spec/70_reset_and_hazards.md section 1 (the spec's decision D14; log 19): RESET sets the parser and empties both
queues, in every state; configuration, outputs and environment are untouched. -/
def Obligations.ResetClearsParserAndQueuesOnly : Prop :=
  ∀ s : State, exec .reset s =
    .next { s with booted := true, ps := .awaitingHeader, rxq := [], txq := [], polled := none }

/-! ### POLL -/

/-- spec/40_framer.md R71. -/
def Obligations.PollShortQueueReturnsNone : Prop :=
  ∀ s : State, s.ps = .awaitingHeader → s.rxq.length < 2 → exec .poll s = .next { s with polled := none }

/-- spec/40_framer.md section 2 (R73); the record's form is the spec's decision D11 (log 18). -/
def Obligations.PollCorruptHeaderFlushesAndLogs : Prop :=
  ∀ (s : State) (kind length : Byte) (rest : List Byte), s.ps = .awaitingHeader →
    s.rxq = kind :: length :: rest → 32 < length.toNat →
    exec .poll s = .next { s with
      ps := .awaitingHeader, rxq := [], polled := none, log := s.log ++ [⟨.headerCorruption, kind, length⟩] }

/-- spec/40_framer.md R74. -/
def Obligations.PollTakesFrameCompleteAtOnce : Prop :=
  ∀ (s : State) (kind length : Byte) (payload rest : List Byte), s.ps = .awaitingHeader →
    s.rxq = kind :: length :: (payload ++ rest) → payload.length = length.toNat → length.toNat ≤ 32 →
    exec .poll s = .next { s with rxq := rest, polled := some ⟨kind, length, payload⟩ }

/-- spec/40_framer.md R75. -/
def Obligations.PollHeaderAwaitsPayload : Prop :=
  ∀ (s : State) (kind length : Byte) (rest : List Byte), s.ps = .awaitingHeader →
    s.rxq = kind :: length :: rest → length.toNat ≤ 32 → rest.length < length.toNat →
    exec .poll s = .next { s with ps := .awaitingPayload kind length 0, rxq := rest, polled := none }

/-- spec/40_framer.md R76: whatever the retry count. -/
def Obligations.PollTakesPendingPayload : Prop :=
  ∀ (s : State) (kind length : Byte) (r : Nat) (payload rest : List Byte),
    s.ps = .awaitingPayload kind length r → s.rxq = payload ++ rest → payload.length = length.toNat →
    exec .poll s = .next { s with ps := .awaitingHeader, rxq := rest, polled := some ⟨kind, length, payload⟩ }

/-- spec/40_framer.md section 3 (R77, R78, R79): a POLL that finds the payload incomplete; the record's form is the spec's
decision D11 (log 18). -/
def Obligations.PollCountsRetryThenStalls : Prop :=
  ∀ (s : State) (kind length : Byte) (r : Nat), s.ps = .awaitingPayload kind length r →
    s.rxq.length < length.toNat →
    exec .poll s = if 2 < r + 1 then
        .next { s with ps := .awaitingHeader, rxq := [], polled := none,
                       log := s.log ++ [⟨.payloadStall, kind, length⟩] }
      else .next { s with ps := .awaitingPayload kind length (r + 1), polled := none }

/-- spec/40_framer.md section 4 (R81 is derived there): POLL always completes, returns at most one Frame, logs at most
one record, never both, and touches neither EVT nor the transmit side. -/
def Obligations.PollIsTotalAndNeverReturnsAndLogs : Prop :=
  ∀ s : State, ∃ t : State, ∃ rs : List Record, exec .poll s = .next t ∧ t.log = s.log ++ rs ∧ rs.length ≤ 1 ∧
    (t.polled ≠ none → rs = []) ∧ t.evt = s.evt ∧ t.txq = s.txq ∧ t.wire = s.wire

/-- spec/20_memory.md R34, R36: the received stream is the pending header followed by RXQ. A POLL that returns a Frame
takes exactly that frame's bytes from its head, and one that neither returns a Frame nor logs loses no byte. -/
def Obligations.PollLosesNoByteUnlessItFlushes : Prop :=
  ∀ s t : State, exec .poll s = .next t →
    (∀ f, t.polled = some f →
      s.ps.pending ++ s.rxq = f.bytes ++ t.rxq ∧ t.ps = .awaitingHeader ∧ f.payload.length = f.length.toNat) ∧
    (t.polled = none → t.log = s.log → t.ps.pending ++ t.rxq = s.ps.pending ++ s.rxq)

/-- spec/40_framer.md section 7 (R85 is derived there): after the POLL that consumed the header, two incomplete POLLs are
tolerated and the third gives up; but a payload complete when that third POLL runs is accepted. The record's
form is the spec's decision D11 (log 18). -/
def Obligations.RetryBudgetIsTwoIncompletePolls : Prop :=
  ∀ (s : State) (kind length : Byte) (late : List Byte), s.ps = .awaitingPayload kind length 0 →
    s.rxq.length < length.toNat → length.toNat ≤ (s.rxq ++ late).length →
    ∃ t u : State, runAll [.poll, .poll] s = .next t ∧ t.rxq = s.rxq ∧ t.log = s.log ∧ t.polled = none ∧
      exec .poll t = .next { t with ps := .awaitingHeader, rxq := [], log := s.log ++ [⟨.payloadStall, kind, length⟩] } ∧
      exec .poll { t with rxq := t.rxq ++ late } = .next u ∧ u.log = s.log ∧
      u.polled = some ⟨kind, length, (s.rxq ++ late).take length.toNat⟩

/-- spec/20_memory.md R45 (derived there): an RXPUSH commutes backwards over a POLL that returns a Frame. -/
def Obligations.RxpushCommutesBackOverFramePoll : Prop :=
  ∀ (s t p : State) (b : Byte) (f : Frame), exec .poll s = .next t → t.polled = some f →
    exec (.rxpush b) s = .next p →
    ∃ u : State, exec .poll p = .next u ∧ u.polled = some f ∧ exec (.rxpush b) t = .next u

/-! ### SERVICE -/

/-- spec/43_link_ports.md R122: SERVICE is POLL until None, DISPATCHing each Frame. -/
def Obligations.ServiceIsPollUntilNoneDispatchingEachFrame : Prop :=
  ∀ s t : State, exec .poll s = .next t →
    (t.polled = none → exec .service s = .next t) ∧
    (∀ (f : Frame) (u : State), t.polled = some f → exec (.dispatch f) t = .next u →
      exec .service s = exec .service u)

/-- spec/43_link_ports.md R123 (derived there): SERVICE ends after at most `len(RXQ) + 1` POLLs, the last of which
returned None, with at most 31 bytes left. -/
def Obligations.ServiceEndsWithinBoundLeavingShortQueue : Prop :=
  ∀ s : State, s.Inv → ∃ t : State, exec .service s = .next t ∧
    State.serviceWithin (s.rxq.length + 1) s = some t ∧ t.polled = none ∧ t.rxq.length ≤ 31

/-- spec/95_test_vectors.md part 4, item 5: a stream of frames, pushed whole and serviced once, is dispatched frame by
frame in order, and RXQ ends empty. -/
def Obligations.ServiceDispatchesWholeStreamInOrder : Prop :=
  ∀ (fs : List Frame) (s : State), (∀ f ∈ fs, f.wf = true) → s.ps = .awaitingHeader →
    s.rxq = fs.flatMap Frame.bytes →
    exec .service s = runAll (fs.map .dispatch) { s with rxq := [], polled := none }

/-- spec/40_framer.md section 7 (R86 is derived there): a stream of frames with `length <= 32`, perhaps with an
incomplete last frame, fed in any chunks with any SERVICEs between them and one at the end, gives the same events and
records as the whole stream and one SERVICE, provided no PayloadStall occurs. -/
def Obligations.ChunkBoundariesDoNotMatterWithoutStall : Prop :=
  ∀ (fs : List Frame) (tail lastBytes : List Byte) (chunks : List (List Byte × Nat)) (n : Nat) (s t : State),
    s.ps = .awaitingHeader → s.rxq = [] → s.cfg.rxqCap = none → (∀ f ∈ fs, f.wf = true) →
    (tail.length < 2 ∨ ∃ kind length rest, tail = kind :: length :: rest ∧ length.toNat ≤ 32 ∧
      rest.length < length.toNat) →
    (chunks ++ [(lastBytes, n + 1)]).flatMap Prod.fst = fs.flatMap Frame.bytes ++ tail →
    runAll ((chunks ++ [(lastBytes, n + 1)]).flatMap chunkOps) s = .next t →
    (∀ r ∈ t.log.drop s.log.length, r.code ≠ .payloadStall) →
    ∃ u : State, runAll (pushAll (fs.flatMap Frame.bytes ++ tail) ++ [.service]) s = .next u ∧
      t.evt = u.evt ∧ t.log = u.log

/-- spec/90_conflicts.md C2, spec/95_test_vectors.md part 4 item 9: without the proviso the property is false. -/
def Obligations.ChunkingNeverChangesEvents : Prop :=
  ∀ (f : Frame) (first second : List Byte) (n : Nat) (s t u : State), f.wf = true → s.ps = .awaitingHeader →
    s.rxq = [] → f.bytes = first ++ second →
    runAll (chunkOps (first, n) ++ chunkOps (second, 1)) s = .next t →
    runAll (pushAll f.bytes ++ [.service]) s = .next u → t.evt = u.evt

/-! ### DISPATCH and the FRAME_RX rows -/

/-- spec/41_dispatcher.md R91. -/
def Obligations.DispatchPitchSettingsEmitsPowerAndFlags : Prop :=
  ∀ (s : State) (power flags : Byte), exec (.dispatch ⟨0x61#8, 2#8, [power, flags]⟩) s =
    .next { s with evt := s.evt ++ [.settingsReport .pitch power flags], polled := none }

/-- spec/41_dispatcher.md section 2, kind `c`, whose byte 0x63 is the spec's decision D18 (log 16). -/
def Obligations.DispatchRollSettingsEmitsPowerAndFlags : Prop :=
  ∀ (s : State) (power flags : Byte), exec (.dispatch ⟨0x63#8, 2#8, [power, flags]⟩) s =
    .next { s with evt := s.evt ++ [.settingsReport .roll power flags], polled := none }

/-- spec/41_dispatcher.md section 2, kinds `b` and `d`: the value is LE32 of the payload, inbound by the spec's decision
D20 (log 14); the kind byte 0x64 is its decision D18 (log 16). -/
def Obligations.DispatchSpeedReadbackIsLittleEndian : Prop :=
  ∀ (s : State) (b0 b1 b2 b3 : Byte), ∃ v : Word,
    v.toNat = b0.toNat + 256 * b1.toNat + 65536 * b2.toNat + 16777216 * b3.toNat ∧
    exec (.dispatch ⟨0x62#8, 4#8, [b0, b1, b2, b3]⟩) s =
      .next { s with evt := s.evt ++ [.speedReadback .pitch v], polled := none } ∧
    exec (.dispatch ⟨0x64#8, 4#8, [b0, b1, b2, b3]⟩) s =
      .next { s with evt := s.evt ++ [.speedReadback .roll v], polled := none }

/-- spec/41_dispatcher.md section 2, kind `i`: assembled little-endian by the spec's decision D20 (log 14); the kind byte
0x69 is its decision D18 (log 16). -/
def Obligations.DispatchDiagnosticIsLittleEndian : Prop :=
  ∀ (s : State) (b0 b1 b2 b3 : Byte), ∃ v : Word,
    v.toNat = b0.toNat + 256 * b1.toNat + 65536 * b2.toNat + 16777216 * b3.toNat ∧
    exec (.dispatch ⟨0x69#8, 4#8, [b0, b1, b2, b3]⟩) s =
      .next { s with evt := s.evt ++ [.diagnostic v], polled := none }

/-- spec/41_dispatcher.md section 3 (R96); the kind bytes but 0x61 and 0x62 are the spec's decision D18 (log 16),
the record's form its decision D11 (log 18). -/
def Obligations.DispatchWrongSizeLogsMismatch : Prop :=
  ∀ (s : State) (f : Frame), f.wf = true →
    ((f.kind = 0x61#8 ∨ f.kind = 0x63#8) ∧ f.length ≠ 2#8) ∨
      ((f.kind = 0x62#8 ∨ f.kind = 0x64#8 ∨ f.kind = 0x69#8) ∧ f.length ≠ 4#8) →
    exec (.dispatch f) s =
      .next { s with log := s.log ++ [⟨.payloadSizeMismatch, f.kind, f.length⟩], polled := none }

/-- spec/41_dispatcher.md section 3 (R97); the kind bytes but 0x61 and 0x62 are the spec's decision D18 (log 16),
the record's form its decision D11 (log 18). -/
def Obligations.DispatchUnknownKindLogsUnrecognized : Prop :=
  ∀ (s : State) (f : Frame), f.wf = true → f.kind ∉ [0x61#8, 0x62#8, 0x63#8, 0x64#8, 0x69#8] →
    exec (.dispatch f) s = .next { s with log := s.log ++ [⟨.unrecognizedKind, f.kind, f.length⟩], polled := none }

/-- spec/41_dispatcher.md R90: one event or one record, which depends on the frame alone, and no state of the block. -/
def Obligations.DispatchOutcomeIsOneEventOrOneRecord : Prop :=
  ∀ f : Frame, f.wf = true → ∃ (es : List Event) (rs : List Record), es.length + rs.length = 1 ∧
    ∀ s : State, exec (.dispatch f) s =
      .next { s with evt := s.evt ++ es, log := s.log ++ rs, polled := none }

/-- spec/30_encoding.md section 4 (R61): the row the decoder gives a frame does what DISPATCH of the frame does. -/
def Obligations.FrameRowAgreesWithDispatch : Prop :=
  ∀ (f : Frame) (s : State), exec (classify f) s = exec (.dispatch f) s

/-- spec/30_encoding.md section 3, the event column of the inbound table. -/
def Obligations.ReportRowsEmitTheirEvent : Prop :=
  ∀ (s : State) (power flags : Byte) (v : Word),
    exec (.rptPitchSettings power flags) s =
      .next { s with evt := s.evt ++ [.settingsReport .pitch power flags], polled := none } ∧
    exec (.rptRollSettings power flags) s =
      .next { s with evt := s.evt ++ [.settingsReport .roll power flags], polled := none } ∧
    exec (.rptPitchSpeed v) s = .next { s with evt := s.evt ++ [.speedReadback .pitch v], polled := none } ∧
    exec (.rptRollSpeed v) s = .next { s with evt := s.evt ++ [.speedReadback .roll v], polled := none } ∧
    exec (.rptDiagnostic v) s = .next { s with evt := s.evt ++ [.diagnostic v], polled := none }

/-- spec/30_encoding.md sections 3 and 4 (R59, R60): the rejecting rows log one record and change nothing else; the
recorded kind bytes but 0x61 and 0x62 are the spec's decision D18 (log 16), the record's form its decision D11 (log 18). -/
def Obligations.RejectingRowsLogOneRecord : Prop :=
  ∀ (s : State) (kind length : Byte) (payload : List Byte),
    exec (.sizeMismatchA length payload) s =
      .next { s with log := s.log ++ [⟨.payloadSizeMismatch, 0x61#8, length⟩], polled := none } ∧
    exec (.sizeMismatchC length payload) s =
      .next { s with log := s.log ++ [⟨.payloadSizeMismatch, 0x63#8, length⟩], polled := none } ∧
    exec (.sizeMismatchB length payload) s =
      .next { s with log := s.log ++ [⟨.payloadSizeMismatch, 0x62#8, length⟩], polled := none } ∧
    exec (.sizeMismatchD length payload) s =
      .next { s with log := s.log ++ [⟨.payloadSizeMismatch, 0x64#8, length⟩], polled := none } ∧
    exec (.sizeMismatchI length payload) s =
      .next { s with log := s.log ++ [⟨.payloadSizeMismatch, 0x69#8, length⟩], polled := none } ∧
    exec (.unrecognized kind length payload) s =
      .next { s with log := s.log ++ [⟨.unrecognizedKind, kind, length⟩], polled := none }

/-- spec/40_framer.md R73, spec/60_exceptions.md R136: the row HDR_CORRUPT, its header already taken (log 11); the
record's form is the spec's decision D11 (log 18). -/
def Obligations.CorruptHeaderRowFlushesAndLogs : Prop :=
  ∀ (s : State) (kind length : Byte),
    exec (.hdrCorrupt kind length) s = .next { s with
      ps := .awaitingHeader, rxq := [], polled := none, log := s.log ++ [⟨.headerCorruption, kind, length⟩] }

/-! ### ENCODE and the CMD rows -/

/-- spec/42_encoder.md section 2: the frames of GetSettings are the spec's decision D7 (log 15), the byte
0x63 its decision D18 (log 16). -/
def Obligations.GetSettingsRowsAppendHeaderOnly : Prop :=
  ∀ s : State, withinCap s.cfg.txqCap (s.txq.length + 2) = true →
    exec .getSettingsPitch s = .next { s with txq := s.txq ++ [0x61#8, 0x00#8] } ∧
    exec .getSettingsRoll s = .next { s with txq := s.txq ++ [0x63#8, 0x00#8] }

/-- spec/42_encoder.md section 2 (R108, R109): `cmd_sel` 0b010 and 0b011, and the frames `41 02 pp ff` and `43 02 pp ff`;
kind bytes and `cmd_sel` are the spec's decisions D18, D13 (log 16, 18). -/
def Obligations.SetSettingsRowsAppendPowerAndFlags : Prop :=
  ∀ (s : State) (power flags : Byte) (speed : Word), withinCap s.cfg.txqCap (s.txq.length + 4) = true →
    decodePort (.cmdRow ⟨0b01#2, 0b0#1, power, flags, speed⟩) = .ok (.setSettingsPitch power flags) ∧
    decodePort (.cmdRow ⟨0b01#2, 0b1#1, power, flags, speed⟩) = .ok (.setSettingsRoll power flags) ∧
    exec (.setSettingsPitch power flags) s = .next { s with txq := s.txq ++ [0x41#8, 0x02#8, power, flags] } ∧
    exec (.setSettingsRoll power flags) s = .next { s with txq := s.txq ++ [0x43#8, 0x02#8, power, flags] }

/-- spec/42_encoder.md section 2 (R110): `cmd_sel` 0b100, and the frame `42 04` with the value's bytes, least significant
first; kind byte and `cmd_sel` are the spec's decisions D18, D13 (log 16, 18). -/
def Obligations.SetSpeedPitchAppendsLittleEndianValue : Prop :=
  ∀ (s : State) (power flags : Byte) (v : Word), withinCap s.cfg.txqCap (s.txq.length + 6) = true →
    decodePort (.cmdRow ⟨0b10#2, 0b0#1, power, flags, v⟩) = .ok (.setSpeedPitch v) ∧
    exec (.setSpeedPitch v) s = .next { s with txq := s.txq ++ [0x42#8, 0x04#8, BitVec.ofNat 8 v.toNat,
      BitVec.ofNat 8 (v.toNat / 256), BitVec.ofNat 8 (v.toNat / 65536), BitVec.ofNat 8 (v.toNat / 16777216)] }

/-- spec/42_encoder.md section 2: SetSpeed(roll) under both admitted values of the open parameter (decision D8, log 2); the
byte of a letter is the spec's decision D18 (log 16). -/
def Obligations.SetSpeedRollAppendsConfiguredKind : Prop :=
  ∀ (s : State) (v : Word), withinCap s.cfg.txqCap (s.txq.length + 6) = true →
    exec (.setSpeedRoll v) s = .next { s with txq := s.txq ++
      [if s.cfg.rollSpeed = .observedC then 0x43#8 else 0x44#8, 0x04#8, BitVec.ofNat 8 v.toNat,
        BitVec.ofNat 8 (v.toNat / 256), BitVec.ofNat 8 (v.toNat / 65536), BitVec.ofNat 8 (v.toNat / 16777216)] }

/-- spec/42_encoder.md section 2 (R112): `cmd_sel` 0b110 or 0b111, and the frame `57 00`, whatever was or was not sent
before; kind byte and `cmd_sel` are the spec's decisions D18, D13 (log 16, 18). -/
def Obligations.StoreToFlashAppendsItsFrame : Prop :=
  ∀ (s : State) (chan : BitVec 1) (power flags : Byte) (speed : Word),
    withinCap s.cfg.txqCap (s.txq.length + 2) = true →
    decodePort (.cmdRow ⟨0b11#2, chan, power, flags, speed⟩) = .ok .storeToFlash ∧
    exec .storeToFlash s = .next { s with txq := s.txq ++ [0x57#8, 0x00#8] }

/-- spec/42_encoder.md section 1 (R105, with decision D16): ENCODE(c) appends Enc(c), a function of the command and the
configuration alone, and is what the row of the command does. -/
def Obligations.EncodeAppendsEncAndAgreesWithItsRow : Prop :=
  ∀ (s : State) (c : Command),
    exec (.encode c) s = exec (commandRow c) s ∧
    (withinCap s.cfg.txqCap (s.txq.length + (c.enc s.cfg.rollSpeed).length) = true →
      exec (.encode c) s = .next { s with txq := s.txq ++ c.enc s.cfg.rollSpeed })

/-- spec/42_encoder.md section 3 (R114, R117, derived there): Dec inverts Enc for both admitted configurations, and every
outbound frame is a Frame of payload length 0, 2 or 4. The frames of GetSettings are the spec's decision D7 (log 15), the
kind bytes its decision D18 (log 16), the kind of SetSpeed(roll) its decision D8 (log 2). -/
def Obligations.DecInvertsEncAndOutboundFramesFit : Prop :=
  ∀ (k : RollSpeedKind) (c : Command), Command.dec k (c.enc k) = some c ∧ (c.frame k).wf = true ∧
    (c.frame k).length ∈ [0#8, 2#8, 4#8]

/-- spec/90_conflicts.md C7, spec/95_test_vectors.md P6: a command frame looped back is never decoded; GetSettings is a
size mismatch (its frame is the spec's decision D7, log 15) and every other command an unrecognized kind (the kind bytes
are its decision D18, log 16; SetSpeed(roll) has either value of D8, log 2). The record's form is D11 (log 18). -/
def Obligations.LoopedBackCommandIsNeverDecoded : Prop :=
  ∀ (k : RollSpeedKind) (c : Command) (s : State), ∃ code : DiagCode,
    exec (.dispatch (c.frame k)) s =
      .next { s with log := s.log ++ [⟨code, (c.frame k).kind, (c.frame k).length⟩], polled := none } ∧
    (code = .payloadSizeMismatch ↔ ∃ ch, c = .getSettings ch) ∧
    (code = .unrecognizedKind ↔ ∀ ch, c ≠ .getSettings ch)

/-! ### The link side -/

/-- spec/43_link_ports.md R120, R121. -/
def Obligations.RxpushAppendsAnyByte : Prop :=
  ∀ (s : State) (b : Byte), withinCap s.cfg.rxqCap (s.rxq.length + 1) = true →
    exec (.rxpush b) s = .next { s with rxq := s.rxq ++ [b] }

/-- spec/43_link_ports.md section 2 (R124, the range of `n` by the spec's decision D24; the sent bytes: log 7). -/
def Obligations.TxpopSendsHeadOfQueue : Prop :=
  ∀ (s : State) (n : Nat), n ≤ s.txq.length →
    exec (.txpop n) s = .next { s with txq := s.txq.drop n, wire := s.wire ++ s.txq.take n }

/-- spec/93_implementation_defined.md U3, U4, U5 (the spec's decisions D4, D5, D24; log 13): where an append would exceed
a capacity, or TXPOP the queue, the operation has no meaning and stops by name. -/
def Obligations.MeaninglessQueueAccessIsRefused : Prop :=
  ∀ (s : State) (b : Byte) (c : Command) (n : Nat),
    (withinCap s.cfg.rxqCap (s.rxq.length + 1) = false → exec (.rxpush b) s = .refused .rxqFull) ∧
    (withinCap s.cfg.txqCap (s.txq.length + (c.enc s.cfg.rollSpeed).length) = false →
      exec (.encode c) s = .refused .txqFull ∧ exec (commandRow c) s = .refused .txqFull) ∧
    (s.txq.length < n → exec (.txpop n) s = .refused .txpopBeyondQueue)

/-! ### The whole machine -/

/-- spec/10_state.md section 2 (R12, derived there), spec/30_encoding.md section 5, spec/20_memory.md section 6: parser
state, queue bounds and record ranges are kept by every step. -/
def Obligations.StepKeepsInvariant : Prop :=
  ∀ s t : State, s.Inv → step s = .next t → t.Inv

/-- spec/20_memory.md R42, spec/10_state.md sections 5 and 7 (log 4, 6, 7, 9): in every step EVT, LOG and the bytes sent are
append-only, no operation changes the configuration, and frames are dispatched in the order of their bytes in the received
stream, none left out and none twice. `State.inbound` is the stream received and not yet dispatched, a Frame that POLL
returned first; the step takes the bytes of the frames `fs` from its head, EVT grows by what DISPATCH of `fs`, in that
order, appends, and LOG by that and at most one record of a flush. Bytes are lost only to a flush or RESET, which leave
nothing behind them. -/
def Obligations.StepOnlyAppendsToOutputsInStreamOrder : Prop :=
  ∀ s t : State, step s = .next t →
    (s.evt <+: t.evt ∧ s.log <+: t.log ∧ s.wire <+: t.wire ∧ t.cfg = s.cfg) ∧
    ∃ (pushed lost : List Byte) (fs : List Frame) (rs : List Record) (u : State),
      s.inbound ++ pushed = fs.flatMap Frame.bytes ++ lost ++ t.inbound ∧
      runAll (fs.map .dispatch) s = .next u ∧ t.evt = u.evt ∧ t.log = u.log ++ rs ∧
      rs.length ≤ 1 ∧ (∀ r ∈ rs, r.code = .headerCorruption ∨ r.code = .payloadStall) ∧
      (pushed = [] ∨ ∃ b rest, s.script = .port (.rx b) :: rest ∧ pushed = [b]) ∧
      (lost = [] ∨ t.inbound = [] ∧ (rs ≠ [] ∨ ∃ rest, s.script = .port .rst :: rest))

/-- spec/20_memory.md section 5 (R43, derived there), spec/43_link_ports.md R125: but for RESET, the bytes sent followed
by TXQ grow by exactly the frame an operation encodes; nothing is dropped, repeated or reordered. -/
def Obligations.SentAndQueuedBytesAreTheEncodedFrames : Prop :=
  ∀ (i : Instr) (s t : State), i ≠ .reset → exec i s = .next t →
    t.wire ++ t.txq = s.wire ++ s.txq ++ txBytes s.cfg.rollSpeed i

/-- spec/20_memory.md section 5 (R44, derived there): an operation of one side leaves the other side alone, and none but
RESET touches what is the model's own. -/
def Obligations.EachSideLeavesTheOtherAlone : Prop :=
  ∀ (i : Instr) (s t : State), exec i s = .next t → t.cfg = s.cfg ∧ t.script = s.script ∧
    (side i = .transmit →
      t.ps = s.ps ∧ t.rxq = s.rxq ∧ t.evt = s.evt ∧ t.log = s.log ∧ t.polled = s.polled ∧ t.booted = s.booted) ∧
    (side i = .receive → t.txq = s.txq ∧ t.wire = s.wire ∧ t.booted = s.booted)

/-- spec/20_memory.md section 5 (R44, derived there): operations of different sides commute, with the same state and the
same outputs. -/
def Obligations.OperationsOfDifferentSidesCommute : Prop :=
  ∀ (i j : Instr) (s a b : State),
    (side i = .receive ∧ side j = .transmit) ∨ (side i = .transmit ∧ side j = .receive) →
    exec i s = .next a → exec j a = .next b → ∃ c : State, exec j s = .next c ∧ exec i c = .next b

/-- spec/60_exceptions.md R149, spec/20_memory.md R46: in the reference semantics every operation is enabled in every
state; TXPOP as far as the queue reaches. -/
def Obligations.EveryOperationIsAlwaysEnabled : Prop :=
  ∀ (i : Instr) (s : State), s.cfg.rxqCap = none → s.cfg.txqCap = none → (∀ n, i = .txpop n → n ≤ s.txq.length) →
    ∃ t : State, exec i s = .next t

/-- spec/10_state.md R24: an accepted settings report overwrites the owner's mirror of its channel wholesale, and no other
event changes it. The mirror is the owner's, here a function of EVT (log 22). -/
def Obligations.MirrorFollowsSettingsReports : Prop :=
  (∀ (es : List Event) (ch ch' : Channel) (power flags : Byte),
    mirror ch (es ++ [.settingsReport ch' power flags]) = if ch' = ch then some ⟨power, flags⟩ else mirror ch es) ∧
  (∀ (es : List Event) (ch ch' : Channel) (v : Word),
    mirror ch (es ++ [.speedReadback ch' v]) = mirror ch es ∧ mirror ch (es ++ [.diagnostic v]) = mirror ch es)

/-! ### The step -/

/-- spec/20_memory.md R37, R39 (the model's schedule: log 4): a scheduled transaction that decodes to `i` is run as `i`, POLL
and DISPATCH in their order (spec/10_state.md R18, spec/20_memory.md R42; log 9). -/
def Obligations.StepRunsScheduledTransaction : Prop :=
  ∀ (s : State) (op : PortOp) (rest : List Slot) (i : Instr), s.script = .port op :: rest → decodePort op = .ok i →
    s.booted = true ∨ i = .reset → (i = .poll ∨ i = .service → s.polled = none) →
    (∀ f, i = .dispatch f → s.polled = some f) → step s = exec i { s with script := rest }

/-- spec/30_encoding.md section 4 and spec/40_framer.md section 4 (the model's stream slot: log 5): when the received
stream, pending header first, begins with the bytes of a well-formed inbound frame, the step runs its row on the state
left when those bytes are taken. No Frame is left to dispatch (log 9). -/
def Obligations.StepRunsFrameAtHeadOfStream : Prop :=
  ∀ (s : State) (i : Instr) (bytes queue : List Byte) (rest : List Slot), s.booted = true → s.polled = none →
    s.script = .stream :: rest → i.wf = true → encode i = .frame bytes →
    (s.ps = .awaitingHeader ∨ ∃ kind length r, s.ps = .awaitingPayload kind length r ∧ length.toNat ≤ 32) →
    s.ps.pending ++ s.rxq = bytes ++ queue →
    step s = exec i { s with ps := .awaitingHeader, rxq := queue, script := rest }

/-- spec/30_encoding.md section 6 (the script line `poll`; log 5): the step on the stream is one POLL, and a DISPATCH if
it returns a Frame. No Frame is left to dispatch before it (log 9). -/
def Obligations.StepOnStreamIsPollThenDispatch : Prop :=
  ∀ (s t : State) (rest : List Slot), s.booted = true → s.polled = none → s.script = .stream :: rest →
    exec .poll { s with script := rest } = .next t →
    (t.polled = none → step s = .next t) ∧ (∀ f, t.polled = some f → step s = exec (.dispatch f) t)

/-- spec/20_memory.md R38, spec/60_exceptions.md R148 (log 4): with nothing scheduled the step changes nothing. -/
def Obligations.StepWithNothingScheduledChangesNothing : Prop :=
  ∀ s : State, s.script = [] → step s = .next s

/-- spec/70_reset_and_hazards.md section 1 (R163, the spec's decision D15; log 3): before the first RESET no operation but
RESET has a meaning. A DISPATCH operand that is no Frame is refused by name (log 12). And by spec/10_state.md R18 and
spec/20_memory.md R42 a DISPATCH of anything but the Frame the last POLL returned, and a POLL, a SERVICE or a fetch from the
stream before that Frame is dispatched, are refused by name (log 9). -/
def Obligations.NoOperationBeforeFirstResetIllFormedOrOutOfPollOrder : Prop :=
  ∀ (s : State) (op : PortOp) (rest : List Slot),
    (s.booted = false → ∀ i, s.script = .port op :: rest → decodePort op = .ok i → i ≠ .reset →
      step s = .refused .beforeReset) ∧
    (s.booted = false → s.script = .stream :: rest → step s = .refused .beforeReset) ∧
    (∀ e, s.script = .port op :: rest → decodePort op = .error e → step s = .refused (.undecodable e)) ∧
    (s.booted = true → ∀ f, s.script = .port op :: rest → decodePort op = .ok (.dispatch f) → s.polled ≠ some f →
      step s = .refused .outOfPollOrder) ∧
    (s.booted = true → ∀ f, s.polled = some f →
      s.script = .port .framer :: rest ∨ s.script = .port .poll :: rest ∨ s.script = .stream :: rest →
      step s = .refused .outOfPollOrder)

/-! ### Encoding -/

/-- spec/30_encoding.md sections 2 to 5: decoding the encoding of a well-formed instruction gives it back. -/
def Obligations.DecodeInvertsEncode : Prop :=
  ∀ i : Instr, i.wf = true → decode (encode i) = .ok i

/-- spec/30_encoding.md R51: the decoder finds the end of an inbound frame from its length byte, whatever follows. -/
def Obligations.DecodeFrameStopsAtTheFrameEnd : Prop :=
  ∀ (i : Instr) (bytes rest : List Byte), i.wf = true → encode i = .frame bytes →
    decodeFrame (bytes ++ rest) = .ok (i, rest)

/-- spec/30_encoding.md sections 3 and 4: what the decoder answers is well-formed, and for a stream it is the encoding of
the bytes taken: each inbound frame has one meaning. -/
def Obligations.DecodedFrameEncodesBackToItsBytes : Prop :=
  ∀ (bytes rest : List Byte) (i : Instr), decodeFrame bytes = .ok (i, rest) →
    i.wf = true ∧ ∃ taken, encode i = .frame taken ∧ bytes = taken ++ rest

/-- spec/10_state.md R18 and spec/30_encoding.md section 5: only well-formed instructions are decoded. -/
def Obligations.DecodeAnswersWellFormedInstructions : Prop :=
  ∀ (e : Encoded) (i : Instr), decode e = .ok i → i.wf = true

/-- spec/30_encoding.md section 4 (R61, derived there; R58, R59, R60): the classification of a header, in priority order,
the payload whole behind it; the kind bytes but 0x61 and 0x62 are the spec's decision D18 (log 16). -/
def Obligations.HeaderClassificationInPriorityOrder : Prop :=
  ∀ (kind length : Byte) (payload rest : List Byte), payload.length = length.toNat →
    (32 < length.toNat → decodeFrame (kind :: length :: (payload ++ rest)) =
      .ok (.hdrCorrupt kind length, payload ++ rest)) ∧
    (length.toNat ≤ 32 → kind ∉ [0x61#8, 0x62#8, 0x63#8, 0x64#8, 0x69#8] →
      decodeFrame (kind :: length :: (payload ++ rest)) = .ok (.unrecognized kind length payload, rest)) ∧
    (length.toNat ≤ 32 → length ≠ 2#8 →
      decodeFrame (0x61#8 :: length :: (payload ++ rest)) = .ok (.sizeMismatchA length payload, rest) ∧
      decodeFrame (0x63#8 :: length :: (payload ++ rest)) = .ok (.sizeMismatchC length payload, rest)) ∧
    (length.toNat ≤ 32 → length ≠ 4#8 →
      decodeFrame (0x62#8 :: length :: (payload ++ rest)) = .ok (.sizeMismatchB length payload, rest) ∧
      decodeFrame (0x64#8 :: length :: (payload ++ rest)) = .ok (.sizeMismatchD length payload, rest) ∧
      decodeFrame (0x69#8 :: length :: (payload ++ rest)) = .ok (.sizeMismatchI length payload, rest))

/-- spec/41_dispatcher.md and spec/42_encoder.md, examples written out: words of several rows decode to them; the byte
0x64 is the spec's decision D18 (log 16), the command port's packing its decision D13 (log 18). -/
def Obligations.WrittenOutWordsDecode : Prop :=
  decode (.frame [0x61#8, 0x02#8, 0x01#8, 0x00#8]) = .ok (.rptPitchSettings 1#8 0#8) ∧
  decode (.frame [0x64#8, 0x04#8, 0x78#8, 0x56#8, 0x34#8, 0x12#8]) = .ok (.rptRollSpeed 0x12345678#32) ∧
  decode (.frame [0x61#8, 0x28#8]) = .ok (.hdrCorrupt 0x61#8 0x28#8) ∧
  decode (.frame [0x7A#8, 0x01#8, 0xFF#8]) = .ok (.unrecognized 0x7A#8 0x01#8 [0xFF#8]) ∧
  decode (.port (.cmdRow ⟨0b01#2, 0b1#1, 0xFF#8, 0x07#8, 0#32⟩)) = .ok (.setSettingsRoll 0xFF#8 0x07#8) ∧
  decode (.port (.rx 0x02#8)) = .ok (.rxpush 0x02#8)

/-- spec/30_encoding.md section 5 (R62, the spec's decision D13; log 18): a command is selected by cmd_op and cmd_chan, and
a field the command does not read changes nothing. -/
def Obligations.CommandPortIgnoresUnreadFields : Prop :=
  ∀ (chan : BitVec 1) (power flags : Byte) (speed : Word),
    decodeCommand ⟨0#2, chan, power, flags, speed⟩ = .getSettings (if chan = 0#1 then .pitch else .roll) ∧
    decodeCommand ⟨1#2, chan, power, flags, speed⟩ =
      .setSettings (if chan = 0#1 then .pitch else .roll) ⟨power, flags⟩ ∧
    decodeCommand ⟨2#2, chan, power, flags, speed⟩ = .setSpeed (if chan = 0#1 then .pitch else .roll) speed ∧
    decodeCommand ⟨3#2, chan, power, flags, speed⟩ = .storeToFlash

/-- spec/30_encoding.md section 5 (R63, R64, the spec's decisions D11, D12; log 18): the ports of events and records, of
either channel. -/
def Obligations.OutputPortsPackEventsAndRecords : Prop :=
  ∀ (ch : Channel) (power flags kind length : Byte) (v : Word),
    (∃ d : Word, d.toNat = power.toNat + 256 * flags.toNat ∧
      (Event.settingsReport ch power flags).port = ⟨0#2, if ch = .pitch then 0#1 else 1#1, d⟩) ∧
    (Event.speedReadback ch v).port = ⟨1#2, if ch = .pitch then 0#1 else 1#1, v⟩ ∧
    (Event.diagnostic v).port = ⟨2#2, 0#1, v⟩ ∧
    [DiagCode.headerCorruption, .payloadStall, .payloadSizeMismatch, .unrecognizedKind].map
      (fun c => (Record.mk c kind length).port) =
      [⟨1#3, kind, length⟩, ⟨2#3, kind, length⟩, ⟨3#3, kind, length⟩, ⟨4#3, kind, length⟩]
end

