-- ==== Sys2Proof/Laws/State.lean ====
section
/-! SUPPORT. One lemma a field for each update of the state, true by definition, so that no later proof unfolds a record
update; and the same for the raising of an error. -/

namespace Sys2Proof.Machine

variable (s : State)

/-! `State.setPs` -/
@[simp] theorem State.setPs_cfg (p : ParserState) : (s.setPs p).cfg = s.cfg := rfl
@[simp] theorem State.setPs_booted (p : ParserState) : (s.setPs p).booted = s.booted := rfl
@[simp] theorem State.setPs_ps (p : ParserState) : (s.setPs p).ps = p := rfl
@[simp] theorem State.setPs_rxq (p : ParserState) : (s.setPs p).rxq = s.rxq := rfl
@[simp] theorem State.setPs_txq (p : ParserState) : (s.setPs p).txq = s.txq := rfl
@[simp] theorem State.setPs_evt (p : ParserState) : (s.setPs p).evt = s.evt := rfl
@[simp] theorem State.setPs_log (p : ParserState) : (s.setPs p).log = s.log := rfl
@[simp] theorem State.setPs_wire (p : ParserState) : (s.setPs p).wire = s.wire := rfl
@[simp] theorem State.setPs_polled (p : ParserState) : (s.setPs p).polled = s.polled := rfl
@[simp] theorem State.setPs_script (p : ParserState) : (s.setPs p).script = s.script := rfl

/-! `State.setRxq` -/
@[simp] theorem State.setRxq_cfg (q : List Byte) : (s.setRxq q).cfg = s.cfg := rfl
@[simp] theorem State.setRxq_booted (q : List Byte) : (s.setRxq q).booted = s.booted := rfl
@[simp] theorem State.setRxq_ps (q : List Byte) : (s.setRxq q).ps = s.ps := rfl
@[simp] theorem State.setRxq_rxq (q : List Byte) : (s.setRxq q).rxq = q := rfl
@[simp] theorem State.setRxq_txq (q : List Byte) : (s.setRxq q).txq = s.txq := rfl
@[simp] theorem State.setRxq_evt (q : List Byte) : (s.setRxq q).evt = s.evt := rfl
@[simp] theorem State.setRxq_log (q : List Byte) : (s.setRxq q).log = s.log := rfl
@[simp] theorem State.setRxq_wire (q : List Byte) : (s.setRxq q).wire = s.wire := rfl
@[simp] theorem State.setRxq_polled (q : List Byte) : (s.setRxq q).polled = s.polled := rfl
@[simp] theorem State.setRxq_script (q : List Byte) : (s.setRxq q).script = s.script := rfl

/-! `State.setPolled` -/
@[simp] theorem State.setPolled_cfg (r : Option Frame) : (s.setPolled r).cfg = s.cfg := rfl
@[simp] theorem State.setPolled_booted (r : Option Frame) : (s.setPolled r).booted = s.booted := rfl
@[simp] theorem State.setPolled_ps (r : Option Frame) : (s.setPolled r).ps = s.ps := rfl
@[simp] theorem State.setPolled_rxq (r : Option Frame) : (s.setPolled r).rxq = s.rxq := rfl
@[simp] theorem State.setPolled_txq (r : Option Frame) : (s.setPolled r).txq = s.txq := rfl
@[simp] theorem State.setPolled_evt (r : Option Frame) : (s.setPolled r).evt = s.evt := rfl
@[simp] theorem State.setPolled_log (r : Option Frame) : (s.setPolled r).log = s.log := rfl
@[simp] theorem State.setPolled_wire (r : Option Frame) : (s.setPolled r).wire = s.wire := rfl
@[simp] theorem State.setPolled_polled (r : Option Frame) : (s.setPolled r).polled = r := rfl
@[simp] theorem State.setPolled_script (r : Option Frame) : (s.setPolled r).script = s.script := rfl

/-! `State.setScript` -/
@[simp] theorem State.setScript_cfg (sc : List Slot) : (s.setScript sc).cfg = s.cfg := rfl
@[simp] theorem State.setScript_booted (sc : List Slot) : (s.setScript sc).booted = s.booted := rfl
@[simp] theorem State.setScript_ps (sc : List Slot) : (s.setScript sc).ps = s.ps := rfl
@[simp] theorem State.setScript_rxq (sc : List Slot) : (s.setScript sc).rxq = s.rxq := rfl
@[simp] theorem State.setScript_txq (sc : List Slot) : (s.setScript sc).txq = s.txq := rfl
@[simp] theorem State.setScript_evt (sc : List Slot) : (s.setScript sc).evt = s.evt := rfl
@[simp] theorem State.setScript_log (sc : List Slot) : (s.setScript sc).log = s.log := rfl
@[simp] theorem State.setScript_wire (sc : List Slot) : (s.setScript sc).wire = s.wire := rfl
@[simp] theorem State.setScript_polled (sc : List Slot) : (s.setScript sc).polled = s.polled := rfl
@[simp] theorem State.setScript_script (sc : List Slot) : (s.setScript sc).script = sc := rfl

/-! `State.emit` -/
@[simp] theorem State.emit_cfg (e : Event) : (s.emit e).cfg = s.cfg := rfl
@[simp] theorem State.emit_booted (e : Event) : (s.emit e).booted = s.booted := rfl
@[simp] theorem State.emit_ps (e : Event) : (s.emit e).ps = s.ps := rfl
@[simp] theorem State.emit_rxq (e : Event) : (s.emit e).rxq = s.rxq := rfl
@[simp] theorem State.emit_txq (e : Event) : (s.emit e).txq = s.txq := rfl
@[simp] theorem State.emit_evt (e : Event) : (s.emit e).evt = s.evt ++ [e] := rfl
@[simp] theorem State.emit_log (e : Event) : (s.emit e).log = s.log := rfl
@[simp] theorem State.emit_wire (e : Event) : (s.emit e).wire = s.wire := rfl
@[simp] theorem State.emit_polled (e : Event) : (s.emit e).polled = s.polled := rfl
@[simp] theorem State.emit_script (e : Event) : (s.emit e).script = s.script := rfl

/-! `State.record` -/
@[simp] theorem State.record_cfg (r : Record) : (s.record r).cfg = s.cfg := rfl
@[simp] theorem State.record_booted (r : Record) : (s.record r).booted = s.booted := rfl
@[simp] theorem State.record_ps (r : Record) : (s.record r).ps = s.ps := rfl
@[simp] theorem State.record_rxq (r : Record) : (s.record r).rxq = s.rxq := rfl
@[simp] theorem State.record_txq (r : Record) : (s.record r).txq = s.txq := rfl
@[simp] theorem State.record_evt (r : Record) : (s.record r).evt = s.evt := rfl
@[simp] theorem State.record_log (r : Record) : (s.record r).log = s.log ++ [r] := rfl
@[simp] theorem State.record_wire (r : Record) : (s.record r).wire = s.wire := rfl
@[simp] theorem State.record_polled (r : Record) : (s.record r).polled = s.polled := rfl
@[simp] theorem State.record_script (r : Record) : (s.record r).script = s.script := rfl

/-! `State.rxAppend` -/
@[simp] theorem State.rxAppend_cfg (b : Byte) : (s.rxAppend b).cfg = s.cfg := rfl
@[simp] theorem State.rxAppend_booted (b : Byte) : (s.rxAppend b).booted = s.booted := rfl
@[simp] theorem State.rxAppend_ps (b : Byte) : (s.rxAppend b).ps = s.ps := rfl
@[simp] theorem State.rxAppend_rxq (b : Byte) : (s.rxAppend b).rxq = s.rxq ++ [b] := rfl
@[simp] theorem State.rxAppend_txq (b : Byte) : (s.rxAppend b).txq = s.txq := rfl
@[simp] theorem State.rxAppend_evt (b : Byte) : (s.rxAppend b).evt = s.evt := rfl
@[simp] theorem State.rxAppend_log (b : Byte) : (s.rxAppend b).log = s.log := rfl
@[simp] theorem State.rxAppend_wire (b : Byte) : (s.rxAppend b).wire = s.wire := rfl
@[simp] theorem State.rxAppend_polled (b : Byte) : (s.rxAppend b).polled = s.polled := rfl
@[simp] theorem State.rxAppend_script (b : Byte) : (s.rxAppend b).script = s.script := rfl

/-! `State.txAppend` -/
@[simp] theorem State.txAppend_cfg (bs : List Byte) : (s.txAppend bs).cfg = s.cfg := rfl
@[simp] theorem State.txAppend_booted (bs : List Byte) : (s.txAppend bs).booted = s.booted := rfl
@[simp] theorem State.txAppend_ps (bs : List Byte) : (s.txAppend bs).ps = s.ps := rfl
@[simp] theorem State.txAppend_rxq (bs : List Byte) : (s.txAppend bs).rxq = s.rxq := rfl
@[simp] theorem State.txAppend_txq (bs : List Byte) : (s.txAppend bs).txq = s.txq ++ bs := rfl
@[simp] theorem State.txAppend_evt (bs : List Byte) : (s.txAppend bs).evt = s.evt := rfl
@[simp] theorem State.txAppend_log (bs : List Byte) : (s.txAppend bs).log = s.log := rfl
@[simp] theorem State.txAppend_wire (bs : List Byte) : (s.txAppend bs).wire = s.wire := rfl
@[simp] theorem State.txAppend_polled (bs : List Byte) : (s.txAppend bs).polled = s.polled := rfl
@[simp] theorem State.txAppend_script (bs : List Byte) : (s.txAppend bs).script = s.script := rfl

/-! `State.txTake` -/
@[simp] theorem State.txTake_cfg (n : Nat) : (s.txTake n).cfg = s.cfg := rfl
@[simp] theorem State.txTake_booted (n : Nat) : (s.txTake n).booted = s.booted := rfl
@[simp] theorem State.txTake_ps (n : Nat) : (s.txTake n).ps = s.ps := rfl
@[simp] theorem State.txTake_rxq (n : Nat) : (s.txTake n).rxq = s.rxq := rfl
@[simp] theorem State.txTake_txq (n : Nat) : (s.txTake n).txq = s.txq.drop n := rfl
@[simp] theorem State.txTake_evt (n : Nat) : (s.txTake n).evt = s.evt := rfl
@[simp] theorem State.txTake_log (n : Nat) : (s.txTake n).log = s.log := rfl
@[simp] theorem State.txTake_wire (n : Nat) : (s.txTake n).wire = s.wire ++ s.txq.take n := rfl
@[simp] theorem State.txTake_polled (n : Nat) : (s.txTake n).polled = s.polled := rfl
@[simp] theorem State.txTake_script (n : Nat) : (s.txTake n).script = s.script := rfl

/-! `State.recover` -/
@[simp] theorem State.recover_cfg : (s.recover).cfg = s.cfg := rfl
@[simp] theorem State.recover_booted : (s.recover).booted = s.booted := rfl
@[simp] theorem State.recover_ps : (s.recover).ps = .awaitingHeader := rfl
@[simp] theorem State.recover_rxq : (s.recover).rxq = [] := rfl
@[simp] theorem State.recover_txq : (s.recover).txq = s.txq := rfl
@[simp] theorem State.recover_evt : (s.recover).evt = s.evt := rfl
@[simp] theorem State.recover_log : (s.recover).log = s.log := rfl
@[simp] theorem State.recover_wire : (s.recover).wire = s.wire := rfl
@[simp] theorem State.recover_polled : (s.recover).polled = s.polled := rfl
@[simp] theorem State.recover_script : (s.recover).script = s.script := rfl

/-! `State.resetBlock` -/
@[simp] theorem State.resetBlock_cfg : (s.resetBlock).cfg = s.cfg := rfl
@[simp] theorem State.resetBlock_booted : (s.resetBlock).booted = true := rfl
@[simp] theorem State.resetBlock_ps : (s.resetBlock).ps = .awaitingHeader := rfl
@[simp] theorem State.resetBlock_rxq : (s.resetBlock).rxq = [] := rfl
@[simp] theorem State.resetBlock_txq : (s.resetBlock).txq = [] := rfl
@[simp] theorem State.resetBlock_evt : (s.resetBlock).evt = s.evt := rfl
@[simp] theorem State.resetBlock_log : (s.resetBlock).log = s.log := rfl
@[simp] theorem State.resetBlock_wire : (s.resetBlock).wire = s.wire := rfl
@[simp] theorem State.resetBlock_polled : (s.resetBlock).polled = none := rfl
@[simp] theorem State.resetBlock_script : (s.resetBlock).script = s.script := rfl

/-! `State.raise`, `State.deliver`, `State.reject` -/
@[simp] theorem State.raise_cfg (code : DiagCode) (kind length : Byte) :
    (s.raise code kind length).cfg = s.cfg := by
  cases code <;> rfl
@[simp] theorem State.raise_booted (code : DiagCode) (kind length : Byte) :
    (s.raise code kind length).booted = s.booted := by
  cases code <;> rfl
@[simp] theorem State.raise_ps (code : DiagCode) (kind length : Byte) :
    (s.raise code kind length).ps = if code.flushes then .awaitingHeader else s.ps := by
  cases code <;> rfl
@[simp] theorem State.raise_rxq (code : DiagCode) (kind length : Byte) :
    (s.raise code kind length).rxq = if code.flushes then [] else s.rxq := by
  cases code <;> rfl
@[simp] theorem State.raise_txq (code : DiagCode) (kind length : Byte) :
    (s.raise code kind length).txq = s.txq := by
  cases code <;> rfl
@[simp] theorem State.raise_evt (code : DiagCode) (kind length : Byte) :
    (s.raise code kind length).evt = s.evt := by
  cases code <;> rfl
@[simp] theorem State.raise_log (code : DiagCode) (kind length : Byte) :
    (s.raise code kind length).log = s.log ++ [⟨code, kind, length⟩] := by
  cases code <;> rfl
@[simp] theorem State.raise_wire (code : DiagCode) (kind length : Byte) :
    (s.raise code kind length).wire = s.wire := by
  cases code <;> rfl
@[simp] theorem State.raise_polled (code : DiagCode) (kind length : Byte) :
    (s.raise code kind length).polled = s.polled := by
  cases code <;> rfl
@[simp] theorem State.raise_script (code : DiagCode) (kind length : Byte) :
    (s.raise code kind length).script = s.script := by
  cases code <;> rfl
@[simp] theorem State.deliver_cfg (e : Event) : (s.deliver e).cfg = s.cfg := rfl
@[simp] theorem State.deliver_booted (e : Event) : (s.deliver e).booted = s.booted := rfl
@[simp] theorem State.deliver_ps (e : Event) : (s.deliver e).ps = s.ps := rfl
@[simp] theorem State.deliver_rxq (e : Event) : (s.deliver e).rxq = s.rxq := rfl
@[simp] theorem State.deliver_txq (e : Event) : (s.deliver e).txq = s.txq := rfl
@[simp] theorem State.deliver_evt (e : Event) : (s.deliver e).evt = s.evt ++ [e] := rfl
@[simp] theorem State.deliver_log (e : Event) : (s.deliver e).log = s.log := rfl
@[simp] theorem State.deliver_wire (e : Event) : (s.deliver e).wire = s.wire := rfl
@[simp] theorem State.deliver_polled (e : Event) : (s.deliver e).polled = none := rfl
@[simp] theorem State.deliver_script (e : Event) : (s.deliver e).script = s.script := rfl
@[simp] theorem State.reject_cfg (code : DiagCode) (kind length : Byte) :
    (s.reject code kind length).cfg = s.cfg := by
  cases code <;> rfl
@[simp] theorem State.reject_booted (code : DiagCode) (kind length : Byte) :
    (s.reject code kind length).booted = s.booted := by
  cases code <;> rfl
@[simp] theorem State.reject_ps (code : DiagCode) (kind length : Byte) :
    (s.reject code kind length).ps = if code.flushes then .awaitingHeader else s.ps := by
  cases code <;> rfl
@[simp] theorem State.reject_rxq (code : DiagCode) (kind length : Byte) :
    (s.reject code kind length).rxq = if code.flushes then [] else s.rxq := by
  cases code <;> rfl
@[simp] theorem State.reject_txq (code : DiagCode) (kind length : Byte) :
    (s.reject code kind length).txq = s.txq := by
  cases code <;> rfl
@[simp] theorem State.reject_evt (code : DiagCode) (kind length : Byte) :
    (s.reject code kind length).evt = s.evt := by
  cases code <;> rfl
@[simp] theorem State.reject_log (code : DiagCode) (kind length : Byte) :
    (s.reject code kind length).log = s.log ++ [⟨code, kind, length⟩] := by
  cases code <;> rfl
@[simp] theorem State.reject_wire (code : DiagCode) (kind length : Byte) :
    (s.reject code kind length).wire = s.wire := by
  cases code <;> rfl
@[simp] theorem State.reject_polled (code : DiagCode) (kind length : Byte) :
    (s.reject code kind length).polled = none := by
  cases code <;> rfl
@[simp] theorem State.reject_script (code : DiagCode) (kind length : Byte) :
    (s.reject code kind length).script = s.script := by
  cases code <;> rfl

end Sys2Proof.Machine
end

