-- ==== Sys2Proof/Laws/Framer.lean ====
section
/-! SUPPORT. What POLL's case analysis can answer, said once (spec/40_framer.md R83): every later proof about POLL, the
stream fetch and SERVICE starts from here. -/

namespace Sys2Proof.Laws

open Sys2Proof.Machine

/-- R71: fewer than two bytes. -/
theorem framer_short {q : List Byte} (h : q.length < 2) : framer .awaitingHeader q = .short := by
  match q, h with
  | [], _ => rfl
  | [_], _ => rfl

/-- R73: the length byte is above 32. -/
theorem framer_corrupt {kind length : Byte} (rest : List Byte) (h : 32 < length.toNat) :
    framer .awaitingHeader (kind :: length :: rest) = .corrupt kind length rest := by
  simp [framer, maxPayload, h]

/-- R74: the payload is there. -/
theorem framer_complete {kind length : Byte} {payload : List Byte} (rest : List Byte)
    (hp : payload.length = length.toNat) (h : length.toNat ≤ 32) :
    framer .awaitingHeader (kind :: length :: (payload ++ rest)) = .complete ⟨kind, length, payload⟩ rest := by
  have h' : payload.length ≤ 32 := hp ▸ h
  simp [framer, maxPayload, ← hp, h']

/-- R75: the payload is not there yet. -/
theorem framer_await {kind length : Byte} {rest : List Byte} (h : length.toNat ≤ 32)
    (hr : rest.length < length.toNat) :
    framer .awaitingHeader (kind :: length :: rest) = .await kind length rest := by
  simp [framer, maxPayload, Nat.not_lt.mpr h, Nat.not_le.mpr hr]

/-- R76: the pending payload is there, whatever the count. -/
theorem framer_pending {kind length : Byte} {payload : List Byte} (r : Nat) (rest : List Byte)
    (hp : payload.length = length.toNat) :
    framer (.awaitingPayload kind length r) (payload ++ rest) = .complete ⟨kind, length, payload⟩ rest := by
  simp [framer, ← hp]

/-- R78: the budget is used up. -/
theorem framer_stall {kind length : Byte} {r : Nat} {q : List Byte} (h : q.length < length.toNat) (hr : 2 < r + 1) :
    framer (.awaitingPayload kind length r) q = .stall kind length := by
  simp [framer, retryLimit, Nat.not_le.mpr h, hr]

/-- R79: keep waiting. -/
theorem framer_retry {kind length : Byte} {r : Nat} {q : List Byte} (h : q.length < length.toNat) (hr : ¬ 2 < r + 1) :
    framer (.awaitingPayload kind length r) q = .retry kind length (r + 1) := by
  simp [framer, retryLimit, Nat.not_le.mpr h, hr]

/-- The inversion of POLL's case analysis: each outcome with the conditions it was taken under. -/
theorem framer_cases (ps : ParserState) (q : List Byte) :
    (ps = .awaitingHeader ∧ q.length < 2 ∧ framer ps q = .short) ∨
    (∃ kind length rest, ps = .awaitingHeader ∧ q = kind :: length :: rest ∧ 32 < length.toNat ∧
      framer ps q = .corrupt kind length rest) ∨
    (∃ kind length payload rest, ps = .awaitingHeader ∧ q = kind :: length :: (payload ++ rest) ∧
      payload.length = length.toNat ∧ length.toNat ≤ 32 ∧ framer ps q = .complete ⟨kind, length, payload⟩ rest) ∨
    (∃ kind length rest, ps = .awaitingHeader ∧ q = kind :: length :: rest ∧ length.toNat ≤ 32 ∧
      rest.length < length.toNat ∧ framer ps q = .await kind length rest) ∨
    (∃ kind length r payload rest, ps = .awaitingPayload kind length r ∧ q = payload ++ rest ∧
      payload.length = length.toNat ∧ framer ps q = .complete ⟨kind, length, payload⟩ rest) ∨
    (∃ kind length r, ps = .awaitingPayload kind length r ∧ q.length < length.toNat ∧ 2 < r + 1 ∧
      framer ps q = .stall kind length) ∨
    (∃ kind length r, ps = .awaitingPayload kind length r ∧ q.length < length.toNat ∧ ¬ 2 < r + 1 ∧
      framer ps q = .retry kind length (r + 1)) := by
  cases ps with
  | awaitingHeader =>
    match q with
    | [] => exact .inl ⟨rfl, by simp, rfl⟩
    | [_] => exact .inl ⟨rfl, by simp, rfl⟩
    | kind :: length :: rest =>
      by_cases hc : 32 < length.toNat
      · exact .inr (.inl ⟨kind, length, rest, rfl, rfl, hc, framer_corrupt rest hc⟩)
      · have hl : length.toNat ≤ 32 := Nat.not_lt.mp hc
        by_cases hr : rest.length < length.toNat
        · exact .inr (.inr (.inr (.inl ⟨kind, length, rest, rfl, rfl, hl, hr, framer_await hl hr⟩)))
        · have hp : (rest.take length.toNat).length = length.toNat := by simp; omega
          refine .inr (.inr (.inl ⟨kind, length, rest.take length.toNat, rest.drop length.toNat, rfl, ?_, hp, hl, ?_⟩))
          · rw [List.take_append_drop]
          · have := framer_complete (kind := kind) (rest.drop length.toNat) hp hl
            rwa [List.take_append_drop] at this
  | awaitingPayload kind length r =>
    by_cases hq : q.length < length.toNat
    · by_cases hr : 2 < r + 1
      · exact .inr (.inr (.inr (.inr (.inr (.inl ⟨kind, length, r, rfl, hq, hr, framer_stall hq hr⟩)))))
      · exact .inr (.inr (.inr (.inr (.inr (.inr ⟨kind, length, r, rfl, hq, hr, framer_retry hq hr⟩)))))
    · have hp : (q.take length.toNat).length = length.toNat := by simp; omega
      refine .inr (.inr (.inr (.inr (.inl
        ⟨kind, length, r, q.take length.toNat, q.drop length.toNat, rfl, ?_, hp, ?_⟩))))
      · rw [List.take_append_drop]
      · have := framer_pending (kind := kind) r (q.drop length.toNat) hp
        rwa [List.take_append_drop] at this

/-- POLL never touches the outputs of the Dispatcher, the transmit side, or what is the model's own. -/
theorem poll_frame (s : State) : s.poll.cfg = s.cfg ∧ s.poll.booted = s.booted ∧ s.poll.txq = s.txq ∧
    s.poll.evt = s.evt ∧ s.poll.wire = s.wire ∧ s.poll.script = s.script := by
  unfold State.poll
  cases framer s.ps s.rxq <;> simp

/-- What is left of a frame-returning POLL. -/
theorem poll_complete {s : State} {f : Frame} {rest : List Byte} (h : framer s.ps s.rxq = .complete f rest) :
    s.poll = ((s.setRxq rest).setPs .awaitingHeader).setPolled (some f) := by
  simp [State.poll, h]

/-- A POLL returns a Frame exactly when its case is the complete frame. -/
theorem poll_polled_some {s : State} {f : Frame} :
    s.poll.polled = some f ↔ ∃ rest, framer s.ps s.rxq = .complete f rest := by
  unfold State.poll
  cases framer s.ps s.rxq <;> simp

end Sys2Proof.Laws
end

