-- ==== Sys2Proof/Laws/Service.lean ====
section
/-! SUPPORT. DISPATCH leaves parser and queues alone, and SERVICE's loop always ends (spec/41_dispatcher.md R99,
spec/40_framer.md R87). -/

namespace Sys2Proof.Laws

open Sys2Proof.Machine

/-- A DISPATCH delivers one event or rejects with one Dispatcher error. -/
theorem dispatch_cases (f : Frame) :
    (∃ e, ∀ s : State, s.dispatch f = s.deliver e) ∨
    (∀ s : State, s.dispatch f = s.reject .payloadSizeMismatch f.kind f.length) ∨
    (∀ s : State, s.dispatch f = s.reject .unrecognizedKind f.kind f.length) := by
  have hs : ∀ ch, (∃ e, ∀ s : State, s.settingsFrame ch f = s.deliver e) ∨
      (∀ s : State, s.settingsFrame ch f = s.reject .payloadSizeMismatch f.kind f.length) := by
    intro ch
    unfold State.settingsFrame
    split
    · exact .inl ⟨_, fun _ => rfl⟩
    · exact .inr fun _ => rfl
  have hw : ∀ mk, (∃ e, ∀ s : State, s.wordFrame mk f = s.deliver e) ∨
      (∀ s : State, s.wordFrame mk f = s.reject .payloadSizeMismatch f.kind f.length) := by
    intro mk
    unfold State.wordFrame
    split
    · exact .inl ⟨_, fun _ => rfl⟩
    · exact .inr fun _ => rfl
  unfold State.dispatch
  split_ifs
  · rcases hs .pitch with h | h
    exacts [.inl h, .inr (.inl h)]
  · rcases hs .roll with h | h
    exacts [.inl h, .inr (.inl h)]
  · rcases hw (.speedReadback .pitch) with h | h
    exacts [.inl h, .inr (.inl h)]
  · rcases hw (.speedReadback .roll) with h | h
    exacts [.inl h, .inr (.inl h)]
  · rcases hw .diagnostic with h | h
    exacts [.inl h, .inr (.inl h)]
  · exact .inr (.inr fun _ => rfl)

/-- DISPATCH touches neither parser nor queues, nor what is the model's own but the returned frame. -/
theorem dispatch_frame (f : Frame) (s : State) : (s.dispatch f).cfg = s.cfg ∧ (s.dispatch f).booted = s.booted ∧
    (s.dispatch f).ps = s.ps ∧ (s.dispatch f).rxq = s.rxq ∧ (s.dispatch f).txq = s.txq ∧
    (s.dispatch f).wire = s.wire ∧ (s.dispatch f).polled = none ∧ (s.dispatch f).script = s.script := by
  rcases dispatch_cases f with ⟨e, h⟩ | h | h <;> simp [h, DiagCode.flushes]

/-- What a POLL that returns a Frame leaves to be polled: RXQ and one more for a pending header. -/
def pollsLeft (s : State) : Nat :=
  s.rxq.length + match s.ps with
    | .awaitingHeader => 0
    | .awaitingPayload _ _ _ => 1

/-- A POLL that returns a Frame leaves less to be polled (spec/40_framer.md R87). -/
theorem poll_some_pollsLeft {s : State} {f : Frame} (h : s.poll.polled = some f) :
    pollsLeft (s.poll.dispatch f) < pollsLeft s := by
  obtain ⟨rest, hf⟩ := poll_polled_some.mp h
  obtain ⟨-, -, hps, hrxq, -⟩ := dispatch_frame f s.poll
  have hleft : pollsLeft (s.poll.dispatch f) = rest.length := by
    simp only [pollsLeft, hps, hrxq]
    simp [poll_complete hf]
  rw [hleft, pollsLeft]
  rcases framer_cases s.ps s.rxq with ⟨_, _, h'⟩ | ⟨_, _, _, _, _, _, h'⟩ | ⟨_, _, _, _, hp, hq, _, _, h'⟩ |
    ⟨_, _, _, _, _, _, _, h'⟩ | ⟨_, _, _, _, _, hp, hq, _, h'⟩ | ⟨_, _, _, _, _, _, h'⟩ | ⟨_, _, _, _, _, _, h'⟩ <;>
    rw [hf] at h' <;> cases h'
  · simp [hp, hq]; omega
  · simp [hp, hq]

/-- The loop ends within any number of POLLs above what is left to be polled. -/
theorem serviceWithin_isSome_of_lt : ∀ (n : Nat) (s : State), pollsLeft s < n → (State.serviceWithin n s).isSome
  | 0, _, h => by omega
  | n + 1, s, h => by
    unfold State.serviceWithin
    split
    · rfl
    · rename_i f hf
      exact serviceWithin_isSome_of_lt n _ (by have := poll_some_pollsLeft hf; omega)

/-- SERVICE's loop ends in every state within `len(RXQ) + 2` POLLs. -/
theorem serviceWithin_isSome (s : State) : (State.serviceWithin (s.rxq.length + 2) s).isSome :=
  serviceWithin_isSome_of_lt _ s (by unfold pollsLeft; split <;> omega)

/-- A loop that has ended ends the same way with more POLLs allowed. -/
theorem serviceWithin_mono : ∀ (n m : Nat) (s t : State), n ≤ m → State.serviceWithin n s = some t →
    State.serviceWithin m s = some t
  | 0, _, _, _, _, h => by simp [State.serviceWithin] at h
  | n + 1, 0, _, _, hm, _ => by omega
  | n + 1, m + 1, s, t, hm, h => by
    cases hp : s.poll.polled with
    | none => simpa [State.serviceWithin, hp] using h
    | some f =>
      simp only [State.serviceWithin, hp] at h ⊢
      exact serviceWithin_mono n m _ t (by omega) h

/-- SERVICE is its loop, whenever the loop ends. -/
theorem service_eq_of_serviceWithin {n : Nat} {s t : State} (h : State.serviceWithin n s = some t) :
    s.service = t := by
  obtain ⟨u, hu⟩ := Option.isSome_iff_exists.mp (serviceWithin_isSome s)
  have h1 := serviceWithin_mono n (max n (s.rxq.length + 2)) s t (by omega) h
  have h2 := serviceWithin_mono (s.rxq.length + 2) (max n (s.rxq.length + 2)) s u (by omega) hu
  unfold State.service
  rw [hu]
  simpa [h1] using h2.symm

end Sys2Proof.Laws
end

