-- ==== Sys2Proof/Laws/Ops.lean ====
section
/-! SUPPORT. What each shared operation can answer, said once: transmit, the admission of an operation, the fetch, the
decoder of transactions, and the step. -/

namespace Sys2Proof.Laws

open Sys2Proof.Machine

/-- `transmit` answers a next state only by appending the whole frame (spec/42_encoder.md R116). -/
theorem transmit_next {bytes : List Byte} {s t : State} (h : s.transmit bytes = .next t) :
    withinCap s.cfg.txqCap (s.txq.length + bytes.length) = true ∧ t = s.txAppend bytes := by
  unfold State.transmit at h
  split at h
  · rename_i hc
    cases h
    exact ⟨hc, rfl⟩
  · cases h

/-- Where the capacity holds the frame, `transmit` appends it. -/
theorem transmit_of_withinCap {bytes : List Byte} {s : State}
    (h : withinCap s.cfg.txqCap (s.txq.length + bytes.length) = true) :
    s.transmit bytes = .next (s.txAppend bytes) := by
  simp [State.transmit, h]

/-- A shorter queue is within a capacity that holds a longer one. -/
theorem withinCap_mono {cap : Option Nat} {m n : Nat} (h : withinCap cap n = true) (hm : m ≤ n) :
    withinCap cap m = true := by
  cases cap with
  | none => rfl
  | some c =>
    simp only [withinCap, decide_eq_true_eq] at h ⊢
    omega

/-- Only the operand of an internal DISPATCH can be refused by the decoder. -/
theorem decodePort_error {op : PortOp} {e : DecodeError} (h : decodePort op = .error e) :
    ∃ bytes, op = .dispatcher bytes ∧ frameFromBytes bytes = .error e := by
  cases op <;> simp only [decodePort, reduceCtorEq] at h
  rename_i bytes
  refine ⟨bytes, rfl, ?_⟩
  split at h
  · cases h
  · rename_i h'
    rw [h', Except.error.inj h]

/-- The step on a scheduled transaction, by what it decodes to. -/
theorem fetch_port {s : State} {op : PortOp} {rest : List Slot} {i : Instr} (hs : s.script = .port op :: rest)
    (hd : decodePort op = .ok i) : fetch s = .run i (s.setScript rest) := by
  simp [fetch, hs, hd]

/-- The step on the received stream fetches from it. -/
theorem fetch_stream {s : State} {rest : List Slot} (hs : s.script = .stream :: rest) :
    fetch s = fetchStream (s.setScript rest) := by
  simp [fetch, hs]

/-- An operation is admitted exactly after a RESET, or as one, and in POLL order. -/
theorem refusal_eq_none {s : State} {i : Instr} :
    s.refusal i = none ↔ (s.booted = true ∨ i = .reset) ∧ s.inOrder i = true := by
  unfold State.refusal
  cases s.booted <;> cases s.inOrder i <;> by_cases hi : i = .reset <;> simp [hi]

/-- The row of a Frame is fetched from the stream, so it is in order when no Frame is left to dispatch. -/
theorem inOrder_classify (f : Frame) (s : State) : s.inOrder (classify f) = s.polled.isNone := by
  unfold classify
  split_ifs
  all_goals first
    | rfl
    | (split <;> rfl)

/-- The row of a Frame is not RESET. -/
theorem classify_ne_reset (f : Frame) : classify f ≠ .reset := by
  unfold classify
  split_ifs
  all_goals first
    | (split <;> simp)
    | simp

/-- What a step that answers a next state did: nothing was scheduled; or a transaction was admitted and run; or the stream
was polled, no Frame being left to dispatch, and it ran the row of what POLL found, or was a POLL that returned `None`. -/
theorem step_next {s t : State} (h : step s = .next t) :
    (s.script = [] ∧ t = s) ∨
    (∃ op rest i, s.script = .port op :: rest ∧ decodePort op = .ok i ∧ s.refusal i = none ∧
      exec i (s.setScript rest) = .next t) ∨
    (∃ rest, s.script = .stream :: rest ∧ s.polled = none ∧ s.booted = true ∧
      ((∃ kind length queue, framer s.ps s.rxq = .corrupt kind length queue ∧
          exec (.hdrCorrupt kind length) ((s.setScript rest).setRxq queue) = .next t) ∨
        (∃ f queue, framer s.ps s.rxq = .complete f queue ∧
          exec (classify f) (((s.setScript rest).setRxq queue).setPs .awaitingHeader) = .next t) ∨
        ((s.setScript rest).poll.polled = none ∧ t = (s.setScript rest).poll))) := by
  have polls : ∀ {i : Instr}, s.refusal i = none → i ≠ .reset → s.inOrder i = s.polled.isNone →
      s.polled = none ∧ s.booted = true := by
    intro i hr hi ho
    obtain ⟨hb, hi'⟩ := refusal_eq_none.mp hr
    exact ⟨Option.isNone_iff_eq_none.mp (ho ▸ hi'), hb.resolve_right hi⟩
  unfold step at h
  cases hs : s.script with
  | nil =>
    simp only [fetch, hs, Host.Outcome.next.injEq] at h
    exact .inl ⟨rfl, h.symm⟩
  | cons slot rest =>
    right
    cases slot with
    | port op =>
      left
      cases hd : decodePort op with
      | error e => simp [fetch, hs, hd] at h
      | ok i =>
        rw [fetch_port hs hd] at h
        cases hr : s.refusal i with
        | some r => simp [hr] at h
        | none => exact ⟨op, rest, i, rfl, hd, hr, by simpa [hr] using h⟩
    | stream =>
      right
      rw [fetch_stream hs] at h
      simp only [fetchStream, State.setScript_ps, State.setScript_rxq] at h
      cases hf : framer s.ps s.rxq with
      | corrupt kind length queue =>
        cases hr : s.refusal (.hdrCorrupt kind length) with
        | some r => simp [hf, hr] at h
        | none =>
          obtain ⟨hp, hb⟩ := polls hr (by simp) rfl
          exact ⟨rest, rfl, hp, hb, .inl ⟨kind, length, queue, rfl, by simpa [hf, hr] using h⟩⟩
      | complete f queue =>
        cases hr : s.refusal (classify f) with
        | some r => simp [hf, hr] at h
        | none =>
          obtain ⟨hp, hb⟩ := polls hr (classify_ne_reset f) (inOrder_classify f s)
          exact ⟨rest, rfl, hp, hb, .inr (.inl ⟨f, queue, rfl, by simpa [hf, hr] using h⟩)⟩
      | _ =>
        cases hr : s.refusal .poll with
        | some r => simp [hf, hr] at h
        | none =>
          obtain ⟨hp, hb⟩ := polls hr (by simp) rfl
          refine ⟨rest, rfl, hp, hb, .inr (.inr ⟨by simp [State.poll, hf], ?_⟩)⟩
          simp only [hf, hr, Host.Outcome.next.injEq] at h
          exact h.symm

end Sys2Proof.Laws
end

