-- ==== Sys2Proof/Laws/Exec.lean ====
section
/-! SUPPORT. Each arm of `exec` in terms of the shared operation it is a line over, and what the compound operations
leave alone, so that no later proof unfolds `exec` or a meaning. -/

namespace Sys2Proof.Laws

open Sys2Proof.Machine

section arms

variable (s : State) (kind length power flags data : Byte) (payload : List Byte) (v : Word)

theorem exec_hdrCorrupt : exec (.hdrCorrupt kind length) s = .next (s.reject .headerCorruption kind length) := rfl
theorem exec_rptPitchSettings : exec (.rptPitchSettings power flags) s =
    .next (s.deliver (.settingsReport .pitch power flags)) := rfl
theorem exec_rptRollSettings : exec (.rptRollSettings power flags) s =
    .next (s.deliver (.settingsReport .roll power flags)) := rfl
theorem exec_rptPitchSpeed : exec (.rptPitchSpeed v) s = .next (s.deliver (.speedReadback .pitch v)) := rfl
theorem exec_rptRollSpeed : exec (.rptRollSpeed v) s = .next (s.deliver (.speedReadback .roll v)) := rfl
theorem exec_rptDiagnostic : exec (.rptDiagnostic v) s = .next (s.deliver (.diagnostic v)) := rfl
theorem exec_sizeMismatchA : exec (.sizeMismatchA length payload) s =
    .next (s.reject .payloadSizeMismatch kindPitchSettings length) := rfl
theorem exec_sizeMismatchC : exec (.sizeMismatchC length payload) s =
    .next (s.reject .payloadSizeMismatch kindRollSettings length) := rfl
theorem exec_sizeMismatchB : exec (.sizeMismatchB length payload) s =
    .next (s.reject .payloadSizeMismatch kindPitchSpeed length) := rfl
theorem exec_sizeMismatchD : exec (.sizeMismatchD length payload) s =
    .next (s.reject .payloadSizeMismatch kindRollSpeed length) := rfl
theorem exec_sizeMismatchI : exec (.sizeMismatchI length payload) s =
    .next (s.reject .payloadSizeMismatch kindDiagnostic length) := rfl
theorem exec_unrecognized : exec (.unrecognized kind length payload) s =
    .next (s.reject .unrecognizedKind kind length) := rfl
theorem exec_reset : exec .reset s = .next s.resetBlock := rfl
theorem exec_rxpush : exec (.rxpush data) s =
    if withinCap s.cfg.rxqCap (s.rxq.length + 1) then .next (s.rxAppend data) else .refused .rxqFull := rfl
theorem exec_poll : exec .poll s = .next s.poll := rfl
theorem exec_dispatch (f : Frame) : exec (.dispatch f) s = .next (s.dispatch f) := rfl
theorem exec_service : exec .service s = .next s.service := rfl
theorem exec_txpop (n : Nat) : exec (.txpop n) s =
    if n ≤ s.txq.length then .next (s.txTake n) else .refused .txpopBeyondQueue := rfl

/-- The eight transmitting operations but TXPOP are one: the append of what they put into TXQ. -/
theorem exec_getSettingsPitch : exec .getSettingsPitch s = s.transmit (txBytes s.cfg.rollSpeed .getSettingsPitch) := rfl
theorem exec_getSettingsRoll : exec .getSettingsRoll s = s.transmit (txBytes s.cfg.rollSpeed .getSettingsRoll) := rfl
theorem exec_setSettingsPitch : exec (.setSettingsPitch power flags) s =
    s.transmit (txBytes s.cfg.rollSpeed (.setSettingsPitch power flags)) := rfl
theorem exec_setSettingsRoll : exec (.setSettingsRoll power flags) s =
    s.transmit (txBytes s.cfg.rollSpeed (.setSettingsRoll power flags)) := rfl
theorem exec_setSpeedPitch : exec (.setSpeedPitch v) s =
    s.transmit (txBytes s.cfg.rollSpeed (.setSpeedPitch v)) := rfl
theorem exec_setSpeedRoll : exec (.setSpeedRoll v) s =
    s.transmit (txBytes s.cfg.rollSpeed (.setSpeedRoll v)) := rfl
theorem exec_storeToFlash : exec .storeToFlash s = s.transmit (txBytes s.cfg.rollSpeed .storeToFlash) := rfl
theorem exec_encode (c : Command) : exec (.encode c) s = s.transmit (txBytes s.cfg.rollSpeed (.encode c)) := rfl

end arms

/-- A next state is known from its outcome. -/
theorem next_inj {s t : State} (h : (Host.Outcome.next s : Result) = .next t) : t = s := by
  cases h
  rfl

/-- SERVICE's loop leaves the transmit side and the model's own alone. -/
theorem serviceWithin_frame : ∀ (n : Nat) (s t : State), State.serviceWithin n s = some t →
    t.cfg = s.cfg ∧ t.booted = s.booted ∧ t.txq = s.txq ∧ t.wire = s.wire ∧ t.script = s.script
  | 0, _, _, h => by simp [State.serviceWithin] at h
  | n + 1, s, t, h => by
    obtain ⟨p1, p2, p3, -, p4, p5⟩ := poll_frame s
    cases hp : s.poll.polled with
    | none =>
      simp only [State.serviceWithin, hp, Option.some.injEq] at h
      subst h
      exact ⟨p1, p2, p3, p4, p5⟩
    | some f =>
      simp only [State.serviceWithin, hp] at h
      obtain ⟨s1, s2, s3, s4, s5⟩ := serviceWithin_frame n _ t h
      obtain ⟨d1, d2, -, -, d3, d4, -, d5⟩ := dispatch_frame f s.poll
      exact ⟨s1.trans (d1.trans p1), s2.trans (d2.trans p2), s3.trans (d3.trans p3), s4.trans (d4.trans p4),
        s5.trans (d5.trans p5)⟩

/-- SERVICE leaves the transmit side and the model's own alone. -/
theorem service_frame (s : State) : s.service.cfg = s.cfg ∧ s.service.booted = s.booted ∧
    s.service.txq = s.txq ∧ s.service.wire = s.wire ∧ s.service.script = s.script := by
  obtain ⟨t, ht⟩ := Option.isSome_iff_exists.mp (serviceWithin_isSome s)
  rw [service_eq_of_serviceWithin ht]
  exact serviceWithin_frame _ _ _ ht

/-- Whatever every POLL that returns `None`, and every POLL followed by the DISPATCH of the frame it returned, keeps,
SERVICE keeps. -/
theorem service_induction {P : State → Prop} (hnone : ∀ s, P s → s.poll.polled = none → P s.poll)
    (hsome : ∀ s f, P s → s.poll.polled = some f → P (s.poll.dispatch f)) (s : State) (h : P s) : P s.service := by
  have loop : ∀ (n : Nat) (s t : State), P s → State.serviceWithin n s = some t → P t := by
    intro n
    induction n with
    | zero => intro s t _ ht; simp [State.serviceWithin] at ht
    | succ n ih =>
      intro s t hs ht
      cases hp : s.poll.polled with
      | none =>
        simp only [State.serviceWithin, hp, Option.some.injEq] at ht
        exact ht ▸ hnone s hs hp
      | some f =>
        simp only [State.serviceWithin, hp] at ht
        exact ih _ t (hsome s f hs hp) ht
  obtain ⟨t, ht⟩ := Option.isSome_iff_exists.mp (serviceWithin_isSome s)
  rw [service_eq_of_serviceWithin ht]
  exact loop _ s t h ht

end Sys2Proof.Laws
end

