-- ==== Sys2Proof/Laws/Operands.lean ====
section
/-! SUPPORT. The byte order of the 32-bit fields (spec/20_memory.md R30, spec/00_scope.md section 5) and the small facts
about frames that decoding and encoding rest on. -/

namespace Sys2Proof.Laws

/-- `LE32(BytesLE32(v)) = v`. -/
theorem le32_bytesLE32 (v : Word) :
    le32 (v.extractLsb' 0 8) (v.extractLsb' 8 8) (v.extractLsb' 16 8) (v.extractLsb' 24 8) = v := by
  apply BitVec.eq_of_getLsbD_eq
  intro i hi
  simp only [le32, BitVec.getLsbD_append, BitVec.getLsbD_extractLsb']
  by_cases h0 : i < 8
  · simp [h0]
  · by_cases h1 : i < 16
    · simp [h0, show i - 8 < 8 by omega, show 8 + (i - 8) = i by omega]
    · by_cases h2 : i < 24
      · simp [h0, show ¬ i - 8 < 8 by omega, show i - 8 - 8 < 8 by omega, show 16 + (i - 8 - 8) = i by omega]
      · simp [h0, show ¬ i - 8 < 8 by omega, show ¬ i - 8 - 8 < 8 by omega, show i - 8 - 8 - 8 < 8 by omega,
          show 24 + (i - 8 - 8 - 8) = i by omega]

/-- `BytesLE32(LE32(s)) = s`. -/
theorem bytesLE32_le32 (b0 b1 b2 b3 : Byte) : bytesLE32 (le32 b0 b1 b2 b3) = [b0, b1, b2, b3] := by
  simp only [bytesLE32, le32, List.cons.injEq, and_true]
  refine ⟨?_, ?_, ?_, ?_⟩ <;>
  · apply BitVec.eq_of_getLsbD_eq
    intro i hi
    simp only [BitVec.getLsbD_append, BitVec.getLsbD_extractLsb', hi, decide_true, Bool.true_and]
    simp [show 8 + i - 8 = i by omega, show 16 + i - 8 = 8 + i by omega, show 24 + i - 8 = 16 + i by omega,
      show ¬ 8 + i < 8 by omega, show ¬ 16 + i < 8 by omega, show ¬ 24 + i < 8 by omega, hi]

/-- `LE32` as the sum of R30. -/
theorem le32_toNat (b0 b1 b2 b3 : Byte) : (le32 b0 b1 b2 b3).toNat =
    b0.toNat + 256 * b1.toNat + 65536 * b2.toNat + 16777216 * b3.toNat := by
  simp only [le32, BitVec.toNat_append]
  have h0 := b0.isLt
  have h1 := b1.isLt
  have h2 := b2.isLt
  rw [Nat.shiftLeft_eq, Nat.shiftLeft_eq, Nat.shiftLeft_eq, Nat.mul_comm _ (2 ^ 8), Nat.mul_comm _ (2 ^ 8),
    Nat.mul_comm _ (2 ^ 8), ← Nat.two_pow_add_eq_or_of_lt h2, ← Nat.two_pow_add_eq_or_of_lt h1,
    ← Nat.two_pow_add_eq_or_of_lt h0]
  omega

/-- Four bytes are sent for a value. -/
@[simp] theorem bytesLE32_length (v : Word) : (bytesLE32 v).length = 4 := rfl

/-- A Frame's two conditions (spec/10_state.md R18). -/
theorem frame_wf_iff (f : Frame) :
    f.wf = true ↔ f.payload.length = f.length.toNat ∧ f.length.toNat ≤ 32 := by
  simp only [Frame.wf, Bool.and_eq_true, decide_eq_true_eq, maxPayload]

/-- The conditions of a size mismatch (spec/30_encoding.md R60). -/
theorem wrongSize_iff (n length : Byte) (payload : List Byte) : wrongSize n length payload = true ↔
    (payload.length = length.toNat ∧ length.toNat ≤ 32) ∧ length ≠ n := by
  simp only [wrongSize, Bool.and_eq_true, decide_eq_true_eq, maxPayload]

/-- A length byte is known from its number. -/
theorem byte_eq_of_toNat {a b : Byte} (h : a.toNat = b.toNat) : a = b := BitVec.eq_of_toNat_eq h

end Sys2Proof.Laws
end

