-- ==== Sys2Proof/Laws/PerInstr.lean ====
section
/-! SUPPORT. Statements made for each instruction. The family `FrameSize` (spec/30_encoding.md R50): the encoding of a
well-formed inbound frame is its two header bytes and at most 32 payload bytes, `2 + length` in all where its payload is
on the wire. -/

namespace Sys2Proof.Laws

/-- An instruction encoded as a frame takes 2 to 34 bytes (spec/30_encoding.md R50). -/
def FrameSize.Statement (i : Instr) : Prop :=
  i.wf = true → ∀ bytes, encode i = .frame bytes → 2 ≤ bytes.length ∧ bytes.length ≤ 34

/-- A frame whose payload is within the capacity takes 2 to 34 bytes. -/
theorem frame_bytes_length (kind length : Byte) {payload bytes : List Byte} (hp : payload.length ≤ 32)
    (h : Encoded.frame (kind :: length :: payload) = .frame bytes) : 2 ≤ bytes.length ∧ bytes.length ≤ 34 := by
  cases h
  simp only [List.length_cons]
  omega

theorem FrameSize.hdrCorrupt (kind : Byte) (length : Byte) : FrameSize.Statement (.hdrCorrupt kind length) := fun _ _ h =>
  frame_bytes_length _ _ (by simp) h

theorem FrameSize.rptPitchSettings (power : Byte) (flags : Byte) : FrameSize.Statement (.rptPitchSettings power flags) := fun _ _ h =>
  frame_bytes_length _ _ (by simp) h

theorem FrameSize.rptRollSettings (power : Byte) (flags : Byte) : FrameSize.Statement (.rptRollSettings power flags) := fun _ _ h =>
  frame_bytes_length _ _ (by simp) h

theorem FrameSize.rptPitchSpeed (v : Word) : FrameSize.Statement (.rptPitchSpeed v) := fun _ _ h =>
  frame_bytes_length _ _ (by simp) h

theorem FrameSize.rptRollSpeed (v : Word) : FrameSize.Statement (.rptRollSpeed v) := fun _ _ h =>
  frame_bytes_length _ _ (by simp) h

theorem FrameSize.rptDiagnostic (v : Word) : FrameSize.Statement (.rptDiagnostic v) := fun _ _ h =>
  frame_bytes_length _ _ (by simp) h

theorem FrameSize.sizeMismatchA (length : Byte) (payload : List Byte) : FrameSize.Statement (.sizeMismatchA length payload) := fun hw _ h =>
  frame_bytes_length _ _ (by have := (wrongSize_iff _ _ _).mp hw; omega) h

theorem FrameSize.sizeMismatchC (length : Byte) (payload : List Byte) : FrameSize.Statement (.sizeMismatchC length payload) := fun hw _ h =>
  frame_bytes_length _ _ (by have := (wrongSize_iff _ _ _).mp hw; omega) h

theorem FrameSize.sizeMismatchB (length : Byte) (payload : List Byte) : FrameSize.Statement (.sizeMismatchB length payload) := fun hw _ h =>
  frame_bytes_length _ _ (by have := (wrongSize_iff _ _ _).mp hw; omega) h

theorem FrameSize.sizeMismatchD (length : Byte) (payload : List Byte) : FrameSize.Statement (.sizeMismatchD length payload) := fun hw _ h =>
  frame_bytes_length _ _ (by have := (wrongSize_iff _ _ _).mp hw; omega) h

theorem FrameSize.sizeMismatchI (length : Byte) (payload : List Byte) : FrameSize.Statement (.sizeMismatchI length payload) := fun hw _ h =>
  frame_bytes_length _ _ (by have := (wrongSize_iff _ _ _).mp hw; omega) h

theorem FrameSize.unrecognized (kind : Byte) (length : Byte) (payload : List Byte) : FrameSize.Statement (.unrecognized kind length payload) := fun hw _ h =>
  frame_bytes_length _ _
    (by have := (frame_wf_iff _).mp (Bool.and_eq_true_iff.mp hw).1; dsimp only at this; omega) h

theorem FrameSize.getSettingsPitch : FrameSize.Statement .getSettingsPitch := fun _ _ h =>
  Encoded.noConfusion h

theorem FrameSize.getSettingsRoll : FrameSize.Statement .getSettingsRoll := fun _ _ h =>
  Encoded.noConfusion h

theorem FrameSize.setSettingsPitch (power : Byte) (flags : Byte) : FrameSize.Statement (.setSettingsPitch power flags) := fun _ _ h =>
  Encoded.noConfusion h

theorem FrameSize.setSettingsRoll (power : Byte) (flags : Byte) : FrameSize.Statement (.setSettingsRoll power flags) := fun _ _ h =>
  Encoded.noConfusion h

theorem FrameSize.setSpeedPitch (v : Word) : FrameSize.Statement (.setSpeedPitch v) := fun _ _ h =>
  Encoded.noConfusion h

theorem FrameSize.setSpeedRoll (v : Word) : FrameSize.Statement (.setSpeedRoll v) := fun _ _ h =>
  Encoded.noConfusion h

theorem FrameSize.storeToFlash : FrameSize.Statement .storeToFlash := fun _ _ h =>
  Encoded.noConfusion h

theorem FrameSize.reset : FrameSize.Statement .reset := fun _ _ h =>
  Encoded.noConfusion h

theorem FrameSize.rxpush (data : Byte) : FrameSize.Statement (.rxpush data) := fun _ _ h =>
  Encoded.noConfusion h

theorem FrameSize.poll : FrameSize.Statement .poll := fun _ _ h =>
  Encoded.noConfusion h

theorem FrameSize.dispatch (f : Frame) : FrameSize.Statement (.dispatch f) := fun _ _ h =>
  Encoded.noConfusion h

theorem FrameSize.service : FrameSize.Statement .service := fun _ _ h =>
  Encoded.noConfusion h

theorem FrameSize.encode (c : Command) : FrameSize.Statement (.encode c) := fun _ _ h =>
  Encoded.noConfusion h

theorem FrameSize.txpop (n : Nat) : FrameSize.Statement (.txpop n) := fun _ _ h =>
  Encoded.noConfusion h

end Sys2Proof.Laws
end

