-- ==== Sys2Proof/Tests/Slice0.lean ====
section
/-! SUPPORT. Tests: ill-formed terms the check refuses; every constructor decoded from a word written out from the spec's
encoding; single steps with results from spec/95_test_vectors.md; and for every obligation with hypotheses a state and
operands that meet them. -/

namespace Sys2Proof.Tests

open Sys2Proof Sys2Proof.Machine

/-- A property of the next state. -/
def after (r : Result) (p : State → Bool) : Bool :=
  match r with
  | .next t => p t
  | .fault _ => false
  | .refused _ => false

/-- A reset instance with a parser state and a receive queue. -/
def rxState (ps : ParserState) (rxq : List Byte) : State := { State.reset with ps := ps, rxq := rxq }

/-- A reset instance with a transmit queue. -/
def txState (txq : List Byte) : State := { State.reset with txq := txq }

/-- An instance whose last POLL returned the frame `61 02 01 00`, one byte behind it, and a DISPATCH scheduled. -/
def dispatchState (bytes : List Byte) : State :=
  { rxState .awaitingHeader [7] with polled := some ⟨0x61, 2, [1, 0]⟩, script := [.port (.dispatcher bytes)] }

/-! ### WellFormed: one ill-formed term for each check -/

theorem test_wf_corrupt_needs_length_above_32 : (Instr.hdrCorrupt 0x61#8 32#8).wf = false := by decide
theorem test_wf_mismatch_needs_another_length : (Instr.sizeMismatchA 2#8 [1#8, 2#8]).wf = false := by decide
theorem test_wf_mismatch_needs_whole_payload : (Instr.sizeMismatchC 3#8 [1#8]).wf = false := by decide
theorem test_wf_word_mismatch_needs_another_length :
    (Instr.sizeMismatchB 4#8 [1#8, 2#8, 3#8, 4#8]).wf = false ∧
    (Instr.sizeMismatchD 4#8 [1#8, 2#8, 3#8, 4#8]).wf = false ∧
    (Instr.sizeMismatchI 4#8 [1#8, 2#8, 3#8, 4#8]).wf = false := by decide
theorem test_wf_mismatch_needs_length_within_32 :
    (Instr.sizeMismatchI 33#8 (List.replicate 33 0#8)).wf = false := by decide
theorem test_wf_unrecognized_needs_unknown_kind : (Instr.unrecognized 0x69#8 0#8 []).wf = false := by decide
theorem test_wf_unrecognized_needs_a_frame : (Instr.unrecognized 0x7A#8 1#8 []).wf = false := by decide
theorem test_wf_dispatch_needs_a_frame : (Instr.dispatch ⟨0x61#8, 2#8, [1#8]⟩).wf = false := by decide

/-! ### Decoding, every constructor (headers: spec/opcode_table.json; payloads: spec/95_test_vectors.md 2.2) -/

theorem test_decode_reports :
    decode (.frame [0x61, 0x02, 0x01, 0x00]) = .ok (.rptPitchSettings 1 0) ∧
    decode (.frame [0x63, 0x02, 0xFF, 0x07]) = .ok (.rptRollSettings 255 7) ∧
    decode (.frame [0x62, 0x04, 0x00, 0x01, 0x00, 0x00]) = .ok (.rptPitchSpeed 256) ∧
    decode (.frame [0x64, 0x04, 0x78, 0x56, 0x34, 0x12]) = .ok (.rptRollSpeed 0x12345678) ∧
    decode (.frame [0x69, 0x04, 0xEF, 0xBE, 0xAD, 0xDE]) = .ok (.rptDiagnostic 0xDEADBEEF) := by decide

theorem test_decode_rejections :
    decode (.frame [0x61, 0x28]) = .ok (.hdrCorrupt 0x61 0x28) ∧
    decode (.frame [0x61, 0x03, 0x01, 0x02, 0x03]) = .ok (.sizeMismatchA 3 [1, 2, 3]) ∧
    decode (.frame [0x63, 0x00]) = .ok (.sizeMismatchC 0 []) ∧
    decode (.frame [0x62, 0x02, 0x01, 0x00]) = .ok (.sizeMismatchB 2 [1, 0]) ∧
    decode (.frame [0x64, 0x01, 0x05]) = .ok (.sizeMismatchD 1 [5]) ∧
    decode (.frame [0x69, 0x02, 0x00, 0x00]) = .ok (.sizeMismatchI 2 [0, 0]) ∧
    decode (.frame [0x7A, 0x01, 0xFF]) = .ok (.unrecognized 0x7A 1 [0xFF]) := by decide

theorem test_decode_command_rows :
    decode (.port (.cmdRow ⟨0b00, 0b0, 0, 0, 0⟩)) = .ok .getSettingsPitch ∧
    decode (.port (.cmdRow ⟨0b00, 0b1, 0, 0, 0⟩)) = .ok .getSettingsRoll ∧
    decode (.port (.cmdRow ⟨0b01, 0b0, 1, 0, 0⟩)) = .ok (.setSettingsPitch 1 0) ∧
    decode (.port (.cmdRow ⟨0b01, 0b1, 255, 7, 0⟩)) = .ok (.setSettingsRoll 255 7) ∧
    decode (.port (.cmdRow ⟨0b10, 0b0, 0, 0, 256⟩)) = .ok (.setSpeedPitch 256) ∧
    decode (.port (.cmdRow ⟨0b10, 0b1, 0, 0, 65536⟩)) = .ok (.setSpeedRoll 65536) ∧
    decode (.port (.cmdRow ⟨0b11, 0b0, 0, 0, 0⟩)) = .ok .storeToFlash ∧
    decode (.port (.cmdRow ⟨0b11, 0b1, 9, 9, 9⟩)) = .ok .storeToFlash := by decide

theorem test_decode_ports :
    decode (.port .rst) = .ok .reset ∧ decode (.port (.rx 0x02)) = .ok (.rxpush 0x02) ∧
    decode (.port .framer) = .ok .poll ∧
    decode (.port (.dispatcher [0x57, 0x00])) = .ok (.dispatch ⟨0x57, 0, []⟩) ∧
    decode (.port .poll) = .ok .service ∧
    decode (.port (.cmd ⟨0b10, 0b1, 0, 0, 65536⟩)) = .ok (.encode (.setSpeed .roll 65536)) ∧
    decode (.port (.tx 3)) = .ok (.txpop 3) := by decide

theorem test_decode_refuses_by_name :
    decode (.frame [0x61]) = .error .shortHeader ∧ decode (.frame [0x61, 0x02, 0x01]) = .error .shortPayload ∧
    decode (.frame [0x57, 0x00, 0x61]) = .error .trailingBytes ∧
    decode (.port (.dispatcher [0x61, 0x21])) = .error .lengthAboveCapacity := by decide

theorem test_decode_length_32_and_33 :
    decodeFrame (0x7A :: 0x20 :: List.replicate 32 0) = .ok (.unrecognized 0x7A 0x20 (List.replicate 32 0), []) ∧
    decodeFrame (0x7A :: 0x21 :: List.replicate 33 0) = .ok (.hdrCorrupt 0x7A 0x21, List.replicate 33 0) := by decide

/-! ### The opcode table's words -/

theorem test_table_word_header :
    decodeTableWord 16 0x6102 = some (.rptPitchSettings 0 0) ∧
    decodeTableWord 16 0x6904 = some (.rptDiagnostic 0) ∧
    decodeTableWord 16 0x6200 = some (.sizeMismatchB 0 []) ∧ decodeTableWord 16 0x6121 = some (.hdrCorrupt 0x61 0x21) := by
  decide

theorem test_table_word_selector :
    decodeTableWord 8 0b010 = some (.setSettingsPitch 0 0) ∧ decodeTableWord 8 0b101 = some (.setSpeedRoll 0) ∧
    decodeTableWord 8 0b110 = some .storeToFlash ∧ decodeTableWord 8 0b111 = some .storeToFlash := by decide

theorem test_fetch_word_runs_header_row :
    after (step (State.reset.withFetchWord 16 0x6102))
      (fun t => t.evt == [.settingsReport .pitch 0 0] && t.rxq == [] && t.script == []) = true := by decide

theorem test_fetch_word_runs_selector_row :
    after (step (State.reset.withFetchWord 8 0b110)) (fun t => t.txq == [0x57, 0x00] && t.script == []) = true := by
  decide

/-! ### Single operations (spec/95_test_vectors.md part 2) -/

/-- V-F2. -/
theorem test_poll_short : after (exec .poll (rxState .awaitingHeader [0x61]))
    (fun t => t.ps == .awaitingHeader && t.rxq == [0x61] && t.polled == none) = true := by decide
/-- V-F15. -/
theorem test_poll_corrupt :
    after (exec .poll (rxState .awaitingHeader [0x61, 0x28, 0xAA, 0xBB, 0x61, 0x02, 0x01, 0x00]))
      (fun t => t.rxq == [] && t.log == [⟨.headerCorruption, 0x61, 0x28⟩] && t.polled == none) = true := by decide
/-- V-F11. -/
theorem test_poll_last_chance : after (exec .poll (rxState (.awaitingPayload 0x61 2 2) [0x01, 0x00]))
    (fun t => t.ps == .awaitingHeader && t.polled == some ⟨0x61, 2, [0x01, 0x00]⟩ && t.log == []) = true := by decide
/-- V-F10. -/
theorem test_poll_stall : after (exec .poll (rxState (.awaitingPayload 0x61 2 2) [0x01]))
    (fun t => t.ps == .awaitingHeader && t.rxq == [] && t.log == [⟨.payloadStall, 0x61, 2⟩]) = true := by decide
/-- V-F9. -/
theorem test_poll_retry : after (exec .poll (rxState (.awaitingPayload 0x61 2 1) [0x01]))
    (fun t => t.ps == .awaitingPayload 0x61 2 2 && t.rxq == [0x01] && t.log == []) = true := by decide
/-- V-F7. -/
theorem test_poll_await : after (exec .poll (rxState .awaitingHeader [0x61, 0x02]))
    (fun t => t.ps == .awaitingPayload 0x61 2 0 && t.rxq == []) = true := by decide
/-- V-D5: the bytes of the superseded scenario E2. -/
theorem test_dispatch_little_endian :
    after (exec (.dispatch ⟨0x62, 4, [0x00, 0x00, 0x01, 0x00]⟩) State.reset)
      (fun t => t.evt == [.speedReadback .pitch 65536]) = true := by decide
/-- V-D18: an unknown kind is never a size mismatch. -/
theorem test_dispatch_kind_before_size : after (exec (.dispatch ⟨0x00, 2, [0x01, 0x00]⟩) State.reset)
    (fun t => t.log == [⟨.unrecognizedKind, 0x00, 2⟩] && t.evt == []) = true := by decide
/-- V-S2. -/
theorem test_service_two_frames :
    after (exec .service (rxState .awaitingHeader [0x7A, 0x01, 0xFF, 0x61, 0x02, 0x05, 0x04]))
      (fun t => t.evt == [.settingsReport .pitch 5 4] && t.log == [⟨.unrecognizedKind, 0x7A, 1⟩] &&
        t.rxq == [] && t.ps == .awaitingHeader) = true := by decide
/-- V-S5. -/
theorem test_service_leaves_lone_byte : after (exec .service (rxState .awaitingHeader [0x57, 0x00, 0x61]))
    (fun t => t.log == [⟨.unrecognizedKind, 0x57, 0⟩] && t.rxq == [0x61]) = true := by decide
/-- V-E6. -/
theorem test_set_speed_pitch : after (exec (.setSpeedPitch 0x12345678) State.reset)
    (fun t => t.txq == [0x42, 0x04, 0x78, 0x56, 0x34, 0x12]) = true := by decide
/-- V-E8, both admitted kinds. -/
theorem test_set_speed_roll : after (exec (.setSpeedRoll 65536) State.reset)
    (fun t => t.txq == [0x43, 0x04, 0x00, 0x00, 0x01, 0x00]) = true := by decide
theorem test_set_speed_roll_distinct_kind :
    after (exec (.setSpeedRoll 65536) { State.reset with cfg := ⟨.distinctD, none, none⟩ })
      (fun t => t.txq == [0x44, 0x04, 0x00, 0x00, 0x01, 0x00]) = true := by decide
/-- V-E4. -/
theorem test_set_settings_roll : after (exec (.setSettingsRoll 255 0x07) State.reset)
    (fun t => t.txq == [0x43, 0x02, 0xFF, 0x07]) = true := by decide
/-- V-E2, through ENCODE. -/
theorem test_encode_get_settings_roll : after (exec (.encode (.getSettings .roll)) State.reset)
    (fun t => t.txq == [0x63, 0x00]) = true := by decide
/-- V-R1. -/
theorem test_reset :
    after (exec .reset { rxState (.awaitingPayload 0x61 2 1) [0x01] with txq := [0x57, 0x00] })
      (fun t => t.ps == .awaitingHeader && t.rxq == [] && t.txq == [] && t.log == []) = true := by decide
/-- spec/20_memory.md R42: the Frame that POLL returned is dispatched, another one is not, and no POLL overtakes it. -/
theorem test_dispatch_in_poll_order :
    after (step (dispatchState [0x61, 2, 1, 0])) (fun t => t.evt == [.settingsReport .pitch 1 0] && t.polled == none) = true ∧
    step (dispatchState [0x61, 2, 1, 1]) = .refused .outOfPollOrder ∧
    step { dispatchState [] with script := [.port .poll] } = .refused .outOfPollOrder :=
  ⟨by decide, rfl, rfl⟩
/-- V-T1. -/
theorem test_txpop_cuts_a_frame : after (exec (.txpop 3) (txState [0x61, 0x00, 0x63, 0x00]))
    (fun t => t.txq == [0x00] && t.wire == [0x61, 0x00, 0x63]) = true := by decide
/-- The example of spec/43_link_ports.md R120. -/
theorem test_rxpush : after (exec (.rxpush 0x02) (rxState .awaitingHeader [0x61]))
    (fun t => t.rxq == [0x61, 0x02]) = true := by decide

/-- The flags byte of V-D3 under decision D9. -/
theorem test_flag_bits : (ChannelSettings.mk 255 0x07).reverse = true ∧
    (ChannelSettings.mk 255 0x07).useTransferCurve = true ∧ (ChannelSettings.mk 255 0x07).disabled = true ∧
    (ChannelSettings.mk 255 0x02).reverse = false := by decide

/-! ### Witnesses: states and operands that meet the hypotheses of each obligation -/

theorem witness_PollShortQueueReturnsNone :
    (rxState .awaitingHeader [0x61]).ps = .awaitingHeader ∧ (rxState .awaitingHeader [0x61]).rxq.length < 2 := by decide
theorem witness_PollCorruptHeaderFlushesAndLogs :
    (rxState .awaitingHeader [0x61, 0x21, 0]).rxq = 0x61 :: 0x21 :: [0] ∧ 32 < (0x21#8).toNat := by decide
theorem witness_PollTakesFrameCompleteAtOnce :
    (rxState .awaitingHeader ([0x61, 0x20] ++ List.replicate 32 0 ++ [7])).rxq =
      0x61 :: 0x20 :: (List.replicate 32 0 ++ [7]) ∧
    (List.replicate 32 (0 : Byte)).length = (0x20#8).toNat ∧ (0x20#8).toNat ≤ 32 := by decide
theorem witness_PollHeaderAwaitsPayload :
    (rxState .awaitingHeader [0x61, 0x20, 1]).rxq = 0x61 :: 0x20 :: [1] ∧ (0x20#8).toNat ≤ 32 ∧
    ([1] : List Byte).length < (0x20#8).toNat := by decide
theorem witness_PollTakesPendingPayload :
    (rxState (.awaitingPayload 0x61 2 2) [1, 0, 7]).ps = .awaitingPayload 0x61 2 2 ∧
    (rxState (.awaitingPayload 0x61 2 2) [1, 0, 7]).rxq = [1, 0] ++ [7] ∧
    ([1, 0] : List Byte).length = (2#8).toNat := by decide
/-- Both clauses: count 1 keeps waiting, count 2 stalls. -/
theorem witness_PollCountsRetryThenStalls :
    (rxState (.awaitingPayload 0x61 2 1) [1]).rxq.length < (2#8).toNat ∧ ¬ 2 < 1 + 1 ∧
    (rxState (.awaitingPayload 0x61 2 2) [1]).rxq.length < (2#8).toNat ∧ 2 < 2 + 1 := by decide
/-- One POLL that returns a Frame and one that returns None without logging. -/
theorem witness_PollLosesNoByteUnlessItFlushes :
    after (exec .poll (rxState .awaitingHeader [0x57, 0, 1])) (fun t => t.polled == some ⟨0x57, 0, []⟩) = true ∧
    after (exec .poll (rxState .awaitingHeader [0x61, 2, 1])) (fun t => t.polled == none && t.log == []) = true := by
  decide
theorem witness_RetryBudgetIsTwoIncompletePolls :
    (rxState (.awaitingPayload 0x61 2 0) [1]).ps = .awaitingPayload 0x61 2 0 ∧
    (rxState (.awaitingPayload 0x61 2 0) [1]).rxq.length < (2#8).toNat ∧
    (2#8).toNat ≤ ((rxState (.awaitingPayload 0x61 2 0) [1]).rxq ++ [0]).length := by decide
theorem witness_RxpushCommutesBackOverFramePoll :
    after (exec .poll (rxState .awaitingHeader [0x57, 0])) (fun t => t.polled == some ⟨0x57, 0, []⟩) = true ∧
    after (exec (.rxpush 9) (rxState .awaitingHeader [0x57, 0])) (fun _ => true) = true := by decide
/-- Both clauses: a POLL that returns None, and one that returns a Frame that DISPATCH takes. -/
theorem witness_ServiceIsPollUntilNoneDispatchingEachFrame :
    after (exec .poll State.reset) (fun t => t.polled == none) = true ∧
    after (exec .poll (rxState .awaitingHeader [0x57, 0])) (fun t => t.polled == some ⟨0x57, 0, []⟩ &&
      after (exec (.dispatch ⟨0x57, 0, []⟩) t) fun _ => true) = true := by decide
theorem witness_ServiceEndsWithinBoundLeavingShortQueue : (rxState (.awaitingPayload 0x61 32 2) [1, 2]).Inv := by
  decide
theorem witness_ServiceDispatchesWholeStreamInOrder :
    (∀ f ∈ [Frame.mk 0x57 0 [], Frame.mk 0x61 2 [1, 0]], f.wf = true) ∧
    (rxState .awaitingHeader [0x57, 0, 0x61, 2, 1, 0]).rxq =
      [Frame.mk 0x57 0 [], Frame.mk 0x61 2 [1, 0]].flatMap Frame.bytes := by decide
/-- A frame in two chunks, with an incomplete second frame behind it. -/
theorem witness_ChunkBoundariesDoNotMatterWithoutStall :
    State.reset.ps = .awaitingHeader ∧ State.reset.rxq = [] ∧ State.reset.cfg.rxqCap = none ∧
    (∀ f ∈ [Frame.mk 0x61 2 [1, 0]], f.wf = true) ∧
    (∃ kind length rest, ([0x62, 4, 0] : List Byte) = kind :: length :: rest ∧ length.toNat ≤ 32 ∧
      rest.length < length.toNat) ∧
    ([([0x61, 2, 1], 2)] ++ [([0, 0x62, 4, 0], 1)] : List (List Byte × Nat)).flatMap Prod.fst =
      [Frame.mk 0x61 2 [1, 0]].flatMap Frame.bytes ++ [0x62, 4, 0] ∧
    after (runAll (([([0x61, 2, 1], 2)] ++ [([0, 0x62, 4, 0], 1)] : List (List Byte × Nat)).flatMap chunkOps)
      State.reset) (fun t => (t.log.drop 0).all fun r => r.code != .payloadStall) = true :=
  ⟨rfl, rfl, rfl, by decide, ⟨0x62, 4, [0], rfl, by decide, by decide⟩, by decide, by decide⟩
theorem witness_ChunkingNeverChangesEvents :
    (Frame.mk 0x61 2 [1, 0]).wf = true ∧ (Frame.mk 0x61 2 [1, 0]).bytes = [0x61, 2, 1] ++ [0] ∧
    after (runAll (chunkOps ([0x61, 2, 1], 4) ++ chunkOps ([0], 1)) State.reset) (fun _ => true) = true ∧
    after (runAll (pushAll (Frame.mk 0x61 2 [1, 0]).bytes ++ [.service]) State.reset) (fun _ => true) = true := by
  decide
/-- A frame of each clause, at lengths beside the expected one and at the capacity. -/
theorem witness_DispatchWrongSizeLogsMismatch :
    (Frame.mk 0x61 3 [1, 2, 3]).wf = true ∧ (3#8 : Byte) ≠ 2 ∧ (Frame.mk 0x63 1 [1]).wf = true ∧ (1#8 : Byte) ≠ 2 ∧
    (Frame.mk 0x69 32 (List.replicate 32 0)).wf = true ∧ (32#8 : Byte) ≠ 4 := by decide
theorem witness_DispatchUnknownKindLogsUnrecognized :
    (Frame.mk 0x65 4 [0, 0, 0, 0]).wf = true ∧ (0x65#8 : Byte) ∉ [0x61#8, 0x62#8, 0x63#8, 0x64#8, 0x69#8] := by decide
theorem witness_DispatchOutcomeIsOneEventOrOneRecord : (Frame.mk 0x00 0 []).wf = true := by decide
theorem witness_GetSettingsRowsAppendHeaderOnly :
    withinCap (some 4) ((txState [1, 2]).txq.length + 2) = true ∧
    withinCap State.reset.cfg.txqCap (State.reset.txq.length + 2) = true := by decide
theorem witness_SetSettingsRowsAppendPowerAndFlags :
    withinCap State.reset.cfg.txqCap (State.reset.txq.length + 4) = true := by decide
theorem witness_SetSpeedPitchAppendsLittleEndianValue :
    withinCap State.reset.cfg.txqCap (State.reset.txq.length + 6) = true := by decide
theorem witness_SetSpeedRollAppendsConfiguredKind :
    withinCap (some 6) (State.reset.txq.length + 6) = true := by decide
theorem witness_StoreToFlashAppendsItsFrame :
    withinCap (some 2) (State.reset.txq.length + 2) = true := by decide
theorem witness_EncodeAppendsEncAndAgreesWithItsRow :
    withinCap State.reset.cfg.txqCap (State.reset.txq.length + (Command.enc .observedC .storeToFlash).length) = true := by
  decide
theorem witness_RxpushAppendsAnyByte : withinCap (some 1) (State.reset.rxq.length + 1) = true := by decide
theorem witness_TxpopSendsHeadOfQueue : 2 ≤ (txState [1, 2]).txq.length ∧ 0 ≤ (txState []).txq.length := by decide
/-- One witness a clause: both capacities reached, and one byte more than the queue holds. -/
theorem witness_MeaninglessQueueAccessIsRefused :
    withinCap (some 1) (([1] : List Byte).length + 1) = false ∧
    withinCap (some 1) (([] : List Byte).length + (Command.enc .observedC .storeToFlash).length) = false ∧
    (txState [1, 2]).txq.length < 3 := by decide
/-- A transaction and a frame in the stream, from states with a pending header too. -/
theorem witness_StepKeepsInvariant :
    ({ State.reset with script := [.port (.rx 0x61)] } : State).Inv ∧
    after (step { State.reset with script := [.port (.rx 0x61)] }) (fun _ => true) = true ∧
    ({ rxState (.awaitingPayload 0x61 1 2) [] with script := [.stream] } : State).Inv ∧
    after (step { rxState (.awaitingPayload 0x61 1 2) [] with script := [.stream] }) (fun _ => true) = true := by decide
/-- A push; a DISPATCH in order; a flush, which loses what is queued; a RESET. -/
theorem witness_StepOnlyAppendsToOutputsInStreamOrder :
    after (step { State.reset with script := [.port (.rx 0x61)] }) (fun t => t.inbound == [0x61]) = true ∧
    after (step (dispatchState [0x61, 2, 1, 0])) (fun t => t.inbound == [7] && t.evt.length == 1) = true ∧
    after (step { rxState .awaitingHeader [0x61, 0x21, 9] with script := [.stream] })
      (fun t => t.inbound == [] && t.log.length == 1) = true ∧
    after (step { rxState .awaitingHeader [9] with script := [.port .rst] }) (fun t => t.inbound == []) = true := by decide
theorem witness_SentAndQueuedBytesAreTheEncodedFrames :
    after (exec (.txpop 1) (txState [1, 2])) (fun _ => true) = true ∧
    after (exec .storeToFlash State.reset) (fun _ => true) = true := by decide
theorem witness_EachSideLeavesTheOtherAlone :
    side .storeToFlash = .transmit ∧ after (exec .storeToFlash State.reset) (fun _ => true) = true ∧
    side .service = .receive ∧ after (exec .service State.reset) (fun _ => true) = true := by decide
theorem witness_OperationsOfDifferentSidesCommute :
    side .service = .receive ∧ side .storeToFlash = .transmit ∧
    after (exec .service State.reset) (fun t => after (exec .storeToFlash t) fun _ => true) = true ∧
    after (exec .storeToFlash State.reset) (fun t => after (exec .service t) fun _ => true) = true := by decide
theorem witness_EveryOperationIsAlwaysEnabled :
    State.reset.cfg.rxqCap = none ∧ State.reset.cfg.txqCap = none ∧ 0 ≤ State.reset.txq.length := by decide
theorem witness_StepRunsScheduledTransaction :
    ({ State.reset with script := [.port (.tx 0)] } : State).script = .port (.tx 0) :: [] ∧
    decodePort (.tx 0) = .ok (.txpop 0) ∧ State.reset.booted = true ∧
    decodePort .framer = .ok .poll ∧ State.reset.polled = none ∧
    decodePort (.dispatcher [0x61, 2, 1, 0]) = .ok (.dispatch ⟨0x61, 2, [1, 0]⟩) ∧
    (dispatchState [0x61, 2, 1, 0]).polled = some ⟨0x61, 2, [1, 0]⟩ := by decide
/-- From both parser states. -/
theorem witness_StepRunsFrameAtHeadOfStream :
    (Instr.rptPitchSettings 1 0).wf = true ∧ encode (.rptPitchSettings 1 0) = .frame [0x61, 2, 1, 0] ∧
    (rxState .awaitingHeader [0x61, 2, 1, 0, 7]).ps.pending ++ (rxState .awaitingHeader [0x61, 2, 1, 0, 7]).rxq =
      [0x61, 2, 1, 0] ++ [7] ∧
    (rxState (.awaitingPayload 0x61 2 1) [1, 0]).ps.pending ++ (rxState (.awaitingPayload 0x61 2 1) [1, 0]).rxq =
      [0x61, 2, 1, 0] ++ [] ∧ (2#8).toNat ≤ 32 ∧ (rxState (.awaitingPayload 0x61 2 1) [1, 0]).polled = none := by decide
theorem witness_StepOnStreamIsPollThenDispatch :
    ({ rxState .awaitingHeader [0x57, 0] with script := [.stream] } : State).booted = true ∧
    ({ rxState .awaitingHeader [0x57, 0] with script := [.stream] } : State).polled = none ∧
    after (exec .poll (rxState .awaitingHeader [0x57, 0])) (fun t => t.polled == some ⟨0x57, 0, []⟩) = true ∧
    after (exec .poll (rxState .awaitingHeader [0x57])) (fun t => t.polled == none) = true := by decide
theorem witness_StepWithNothingScheduledChangesNothing : State.reset.script = [] := by decide
/-- One witness a clause. -/
theorem witness_NoOperationBeforeFirstResetIllFormedOrOutOfPollOrder :
    ({ State.reset with booted := false, script := [.port .poll] } : State).booted = false ∧
    decodePort .poll = .ok .service ∧ Instr.service ≠ .reset ∧
    ({ State.reset with booted := false, script := [.stream] } : State).script = .stream :: [] ∧
    decodePort (.dispatcher [0x61]) = .error .shortHeader ∧
    decodePort (.dispatcher [0x57, 0]) = .ok (.dispatch ⟨0x57, 0, []⟩) ∧ State.reset.polled ≠ some ⟨0x57, 0, []⟩ ∧
    (dispatchState [0x57, 0]).polled = some ⟨0x61, 2, [1, 0]⟩ ∧
    ({ dispatchState [] with script := [.port .framer] } : State).script = .port .framer :: [] := by decide
/-- Operands at the ends of their ranges. -/
theorem witness_DecodeInvertsEncode :
    (Instr.hdrCorrupt 0 33).wf = true ∧ (Instr.hdrCorrupt 0xFF 0xFF).wf = true ∧
    (Instr.unrecognized 0 32 (List.replicate 32 0)).wf = true := by decide
theorem witness_DecodeFrameStopsAtTheFrameEnd :
    (Instr.rptPitchSettings 1 0).wf = true ∧ encode (.rptPitchSettings 1 0) = .frame [0x61, 2, 1, 0] := by decide
theorem witness_DecodedFrameEncodesBackToItsBytes :
    decodeFrame [0x57, 0x00, 0x61] = .ok (.unrecognized 0x57 0 [], [0x61]) := by decide
theorem witness_DecodeAnswersWellFormedInstructions : decode (.port .rst) = .ok .reset := by decide
/-- Lengths where the clauses meet: 33 (corrupt), 32 of an unknown kind, 3 beside 2 and 4. -/
theorem witness_HeaderClassificationInPriorityOrder :
    (List.replicate 33 (0 : Byte)).length = (33#8).toNat ∧ 32 < (33#8).toNat ∧
    (List.replicate 32 (0 : Byte)).length = (32#8).toNat ∧ (32#8).toNat ≤ 32 ∧
    (0x7A#8 : Byte) ∉ [0x61#8, 0x62#8, 0x63#8, 0x64#8, 0x69#8] ∧
    ([1, 2, 3] : List Byte).length = (3#8).toNat ∧ (3#8 : Byte) ≠ 2 ∧ (3#8 : Byte) ≠ 4 := by decide

end Sys2Proof.Tests
end

/-! PROOFS. The POLL cases that log nothing (spec/40_framer.md R71, R74, R75, R76). In each, the hypotheses fix the answer
of `framer`, and the answer fixes the state after the POLL. -/

namespace Sys2Proof.Proofs.Framer

open Sys2Proof.Machine Sys2Proof.Laws

/-- Writing the parser state that is already there changes nothing. -/
theorem setPs_eq_self {s : State} {p : ParserState} (h : s.ps = p) : s.setPs p = s := by
  subst h
  rfl

/-- What is left of a POLL that finds fewer than two bytes. -/
theorem poll_short {s : State} (h : framer s.ps s.rxq = .short) : s.poll = s.setPolled none := by
  simp [State.poll, h]

/-- What is left of a POLL that takes a header and awaits its payload. -/
theorem poll_await {s : State} {kind length : Byte} {rest : List Byte}
    (h : framer s.ps s.rxq = .await kind length rest) :
    s.poll = ((s.setRxq rest).setPs (.awaitingPayload kind length 0)).setPolled none := by
  simp [State.poll, h]

/-- Settles O4: the framer answers `short`. -/
theorem pollShortQueueReturnsNone : Obligations.PollShortQueueReturnsNone := by
  intro s hps hshort
  have hf : framer s.ps s.rxq = .short := by rw [hps, framer_short hshort]
  rw [exec_poll, poll_short hf]
  rfl

/-- Settles O6: the framer answers the complete frame, and the parser state it would set is the one it was in. -/
theorem pollTakesFrameCompleteAtOnce : Obligations.PollTakesFrameCompleteAtOnce := by
  intro s kind length payload rest hps hrxq hpayload hlength
  have hf : framer s.ps s.rxq = .complete ⟨kind, length, payload⟩ rest := by
    rw [hps, hrxq, framer_complete rest hpayload hlength]
  have hps' : (s.setRxq rest).setPs .awaitingHeader = s.setRxq rest := setPs_eq_self hps
  rw [exec_poll, poll_complete hf, hps']
  rfl

/-- Settles O7: the framer answers `await`. -/
theorem pollHeaderAwaitsPayload : Obligations.PollHeaderAwaitsPayload := by
  intro s kind length rest hps hrxq hlength hincomplete
  have hf : framer s.ps s.rxq = .await kind length rest := by
    rw [hps, hrxq, framer_await hlength hincomplete]
  rw [exec_poll, poll_await hf]
  rfl

/-- Settles O8: the framer answers the complete frame without reading the retry count. -/
theorem pollTakesPendingPayload : Obligations.PollTakesPendingPayload := by
  intro s kind length r payload rest hps hrxq hpayload
  have hf : framer s.ps s.rxq = .complete ⟨kind, length, payload⟩ rest := by
    rw [hps, hrxq, framer_pending r rest hpayload]
  rw [exec_poll, poll_complete hf]
  rfl

end Sys2Proof.Proofs.Framer

/-! PROOFS. DISPATCH of a pitch settings frame (spec/41_dispatcher.md R91): the kind picks the row of the Dispatcher's
table, the size picks the event, and delivering the event fixes the next state. -/

namespace Sys2Proof.Proofs.Dispatcher

open Sys2Proof.Machine Sys2Proof.Laws

/-- A delivered event is appended to EVT and the frame is consumed; nothing else changes. -/
theorem deliver_eq (s : State) (e : Event) : s.deliver e = { s with evt := s.evt ++ [e], polled := none } := rfl

/-- A settings frame of the expected size is delivered, whatever its two bytes are. -/
theorem settingsFrame_pair (s : State) (channel : Channel) (kind length power flags : Byte) :
    s.settingsFrame channel ⟨kind, length, [power, flags]⟩ = s.deliver (.settingsReport channel power flags) := rfl

/-- The first row of the Dispatcher's table. -/
theorem dispatch_of_kind_pitchSettings {f : Frame} (h : f.kind = kindPitchSettings) (s : State) :
    s.dispatch f = s.settingsFrame .pitch f := if_pos h

/-- Settles O19: the kind byte is the pitch settings row's, and a payload of two bytes is delivered. -/
theorem dispatchPitchSettingsEmitsPowerAndFlags : Obligations.DispatchPitchSettingsEmitsPowerAndFlags := by
  intro s power flags
  rw [exec_dispatch, dispatch_of_kind_pitchSettings rfl, settingsFrame_pair, deliver_eq]

end Sys2Proof.Proofs.Dispatcher

/-! PROOFS. RXPUSH (spec/43_link_ports.md R120): the capacity is its only condition, and appending to RXQ its only effect. -/

namespace Sys2Proof.Proofs.LinkPorts

open Sys2Proof.Machine Sys2Proof.Laws

/-- Settles O38: the byte fits, so RXPUSH takes the branch that appends it, without reading the byte or `ps`. -/
theorem rxpushAppendsAnyByte : Obligations.RxpushAppendsAnyByte := by
  intro s b hfits
  rw [exec_rxpush, if_pos hfits]
  rfl

end Sys2Proof.Proofs.LinkPorts

/-! PROOFS. The decoder of inbound frames and of transactions (spec/30_encoding.md sections 3 to 5). The opcode table's
inbound rows are listed once, as a relation between a Frame and its row; `classify` computes that relation, the encoder
inverts it, and each statement about decoding is read off it. -/

namespace Sys2Proof.Proofs.Codec

open Sys2Proof.Machine Sys2Proof.Laws

/-- The inbound table of spec/30_encoding.md R55 and R58 to R61: which row a Frame stands for. -/
inductive IsRow : Frame → Instr → Prop
  | pitchSettings (n power flags : Byte) :
    IsRow ⟨kindPitchSettings, n, [power, flags]⟩ (.rptPitchSettings power flags)
  | rollSettings (n power flags : Byte) :
    IsRow ⟨kindRollSettings, n, [power, flags]⟩ (.rptRollSettings power flags)
  | pitchSpeed (n b0 b1 b2 b3 : Byte) :
    IsRow ⟨kindPitchSpeed, n, [b0, b1, b2, b3]⟩ (.rptPitchSpeed (le32 b0 b1 b2 b3))
  | rollSpeed (n b0 b1 b2 b3 : Byte) :
    IsRow ⟨kindRollSpeed, n, [b0, b1, b2, b3]⟩ (.rptRollSpeed (le32 b0 b1 b2 b3))
  | diagnostic (n b0 b1 b2 b3 : Byte) :
    IsRow ⟨kindDiagnostic, n, [b0, b1, b2, b3]⟩ (.rptDiagnostic (le32 b0 b1 b2 b3))
  | mismatchA (n : Byte) {payload : List Byte} (h : payload.length ≠ 2) :
    IsRow ⟨kindPitchSettings, n, payload⟩ (.sizeMismatchA n payload)
  | mismatchC (n : Byte) {payload : List Byte} (h : payload.length ≠ 2) :
    IsRow ⟨kindRollSettings, n, payload⟩ (.sizeMismatchC n payload)
  | mismatchB (n : Byte) {payload : List Byte} (h : payload.length ≠ 4) :
    IsRow ⟨kindPitchSpeed, n, payload⟩ (.sizeMismatchB n payload)
  | mismatchD (n : Byte) {payload : List Byte} (h : payload.length ≠ 4) :
    IsRow ⟨kindRollSpeed, n, payload⟩ (.sizeMismatchD n payload)
  | mismatchI (n : Byte) {payload : List Byte} (h : payload.length ≠ 4) :
    IsRow ⟨kindDiagnostic, n, payload⟩ (.sizeMismatchI n payload)
  | unrecognized (n : Byte) (payload : List Byte) {kind : Byte} (h : kind ∉ recognizedKinds) :
    IsRow ⟨kind, n, payload⟩ (.unrecognized kind n payload)

/-- A payload is the settings layout exactly when it has two bytes. -/
theorem pair_or_length_ne (payload : List Byte) : (∃ a b, payload = [a, b]) ∨ payload.length ≠ 2 := by
  by_cases h : payload.length = 2
  · exact .inl (List.length_eq_two.mp h)
  · exact .inr h

/-- A payload is the word layout exactly when it has four bytes. -/
theorem word_or_length_ne (payload : List Byte) : (∃ a b c d, payload = [a, b, c, d]) ∨ payload.length ≠ 4 := by
  match payload with
  | [a, b, c, d] => exact .inl ⟨a, b, c, d, rfl⟩
  | [] | [_] | [_, _] | [_, _, _] | _ :: _ :: _ :: _ :: _ :: _ => exact .inr (by simp)

/-- The row of a Frame is the one `classify` gives. -/
theorem IsRow.classify_eq {f : Frame} {i : Instr} (h : IsRow f i) : classify f = i := by
  cases h with
  | pitchSettings | rollSettings | pitchSpeed | rollSpeed | diagnostic => rfl
  | @mismatchA _ payload h | @mismatchC _ payload h =>
    match payload, h with
    | [], _ | [_], _ | _ :: _ :: _ :: _, _ => rfl
  | @mismatchB _ payload h | @mismatchD _ payload h | @mismatchI _ payload h =>
    match payload, h with
    | [], _ | [_], _ | [_, _], _ | [_, _, _], _ | _ :: _ :: _ :: _ :: _ :: _, _ => rfl
  | unrecognized _ _ h =>
    simp only [recognizedKinds, List.mem_cons, List.not_mem_nil, or_false, not_or] at h
    obtain ⟨ha, hc, hb, hd, hi⟩ := h
    simp [classify, ha, hc, hb, hd, hi]

/-- Every Frame has a row. -/
theorem exists_isRow (f : Frame) : ∃ i, IsRow f i := by
  obtain ⟨kind, n, payload⟩ := f
  by_cases hk : kind ∈ recognizedKinds
  · simp only [recognizedKinds, List.mem_cons, List.not_mem_nil, or_false] at hk
    rcases hk with rfl | rfl | rfl | rfl | rfl
    · obtain ⟨a, b, rfl⟩ | h := pair_or_length_ne payload
      exacts [⟨_, .pitchSettings n a b⟩, ⟨_, .mismatchA n h⟩]
    · obtain ⟨a, b, rfl⟩ | h := pair_or_length_ne payload
      exacts [⟨_, .rollSettings n a b⟩, ⟨_, .mismatchC n h⟩]
    · obtain ⟨a, b, c, d, rfl⟩ | h := word_or_length_ne payload
      exacts [⟨_, .pitchSpeed n a b c d⟩, ⟨_, .mismatchB n h⟩]
    · obtain ⟨a, b, c, d, rfl⟩ | h := word_or_length_ne payload
      exacts [⟨_, .rollSpeed n a b c d⟩, ⟨_, .mismatchD n h⟩]
    · obtain ⟨a, b, c, d, rfl⟩ | h := word_or_length_ne payload
      exacts [⟨_, .diagnostic n a b c d⟩, ⟨_, .mismatchI n h⟩]
  · exact ⟨_, .unrecognized n payload hk⟩

/-- `classify` answers the row of every Frame. -/
theorem isRow_classify (f : Frame) : IsRow f (classify f) := by
  obtain ⟨i, h⟩ := exists_isRow f
  rwa [h.classify_eq]

/-- A length byte is known from the number of payload bytes it counts. -/
theorem length_eq_of_toNat {length n : Byte} {payload : List Byte} (hp : payload.length = length.toNat)
    (hn : payload.length = n.toNat) : length = n := BitVec.eq_of_toNat_eq (hp.symm.trans hn)

/-- A payload whose length byte is not `n` has another size than `n`. -/
theorem length_ne_of_byte_ne {length n : Byte} {payload : List Byte} (hp : payload.length = length.toNat)
    (h : length ≠ n) : payload.length ≠ n.toNat := fun he => h (length_eq_of_toNat hp he)

/-- A payload of another size than `n` has another length byte, so its row is a size mismatch. -/
theorem wrongSize_of_length_ne {n length : Byte} {payload : List Byte} (hp : payload.length = length.toNat)
    (hl : length.toNat ≤ 32) (hn : payload.length ≠ n.toNat) : wrongSize n length payload = true :=
  (wrongSize_iff n length payload).mpr ⟨⟨hp, hl⟩, fun h => hn (h ▸ hp)⟩

/-- The row of a well-formed Frame is well-formed and is encoded as the Frame's bytes. -/
theorem IsRow.wf_and_encode {f : Frame} {i : Instr} (h : IsRow f i) (hw : f.wf = true) :
    i.wf = true ∧ encode i = .frame f.bytes := by
  obtain ⟨hp, hl⟩ := (frame_wf_iff f).mp hw
  cases h with
  | pitchSettings | rollSettings =>
    obtain rfl := length_eq_of_toNat (n := settingsSize) hp rfl
    exact ⟨rfl, rfl⟩
  | pitchSpeed | rollSpeed | diagnostic =>
    obtain rfl := length_eq_of_toNat (n := wordSize) hp rfl
    exact ⟨rfl, by simp only [encode, bytesLE32_le32, Frame.bytes]⟩
  | mismatchA _ h | mismatchC _ h | mismatchB _ h | mismatchD _ h | mismatchI _ h =>
    exact ⟨wrongSize_of_length_ne hp hl h, rfl⟩
  | unrecognized n payload h => exact ⟨by simp [Instr.wf, hw, h], rfl⟩

/-- The payload of a size mismatch has another size than the expected one. -/
theorem length_ne_of_wrongSize {n length : Byte} {payload : List Byte} (h : wrongSize n length payload = true) :
    payload.length ≠ n.toNat := by
  obtain ⟨⟨hp, -⟩, hn⟩ := (wrongSize_iff n length payload).mp h
  exact length_ne_of_byte_ne hp hn

/-- The Frame of a size mismatch is well-formed. -/
theorem frame_wf_of_wrongSize {n length : Byte} {payload : List Byte} (h : wrongSize n length payload = true)
    (kind : Byte) : Frame.wf ⟨kind, length, payload⟩ = true :=
  (frame_wf_iff _).mpr ((wrongSize_iff n length payload).mp h).1

/-- A row that carries `LE32` of its four payload bytes carries any value under the bytes of that value. -/
theorem isRow_word {kind n : Byte} {row : Word → Instr}
    (h : ∀ b0 b1 b2 b3, IsRow ⟨kind, n, [b0, b1, b2, b3]⟩ (row (le32 b0 b1 b2 b3))) (v : Word) :
    IsRow ⟨kind, n, bytesLE32 v⟩ (row v) := by
  have hv := h (v.extractLsb' 0 8) (v.extractLsb' 8 8) (v.extractLsb' 16 8) (v.extractLsb' 24 8)
  rwa [le32_bytesLE32] at hv

/-- What is encoded as a frame on the wire is a corrupt header or the row of a well-formed Frame. -/
theorem encode_frame_cases {i : Instr} {bytes : List Byte} (hw : i.wf = true) (h : encode i = .frame bytes) :
    (∃ kind length, i = .hdrCorrupt kind length ∧ 32 < length.toNat ∧ bytes = [kind, length]) ∨
    (∃ f : Frame, f.wf = true ∧ IsRow f i ∧ bytes = f.bytes) := by
  cases i <;> cases h
  case hdrCorrupt kind length => exact .inl ⟨kind, length, rfl, of_decide_eq_true hw, rfl⟩
  case rptPitchSettings power flags => exact .inr ⟨_, rfl, .pitchSettings settingsSize power flags, rfl⟩
  case rptRollSettings power flags => exact .inr ⟨_, rfl, .rollSettings settingsSize power flags, rfl⟩
  case rptPitchSpeed v => exact .inr ⟨_, rfl, isRow_word (.pitchSpeed wordSize) v, rfl⟩
  case rptRollSpeed v => exact .inr ⟨_, rfl, isRow_word (.rollSpeed wordSize) v, rfl⟩
  case rptDiagnostic v => exact .inr ⟨_, rfl, isRow_word (.diagnostic wordSize) v, rfl⟩
  case sizeMismatchA n payload =>
    exact .inr ⟨_, frame_wf_of_wrongSize hw _, .mismatchA n (length_ne_of_wrongSize hw), rfl⟩
  case sizeMismatchC n payload =>
    exact .inr ⟨_, frame_wf_of_wrongSize hw _, .mismatchC n (length_ne_of_wrongSize hw), rfl⟩
  case sizeMismatchB n payload =>
    exact .inr ⟨_, frame_wf_of_wrongSize hw _, .mismatchB n (length_ne_of_wrongSize hw), rfl⟩
  case sizeMismatchD n payload =>
    exact .inr ⟨_, frame_wf_of_wrongSize hw _, .mismatchD n (length_ne_of_wrongSize hw), rfl⟩
  case sizeMismatchI n payload =>
    exact .inr ⟨_, frame_wf_of_wrongSize hw _, .mismatchI n (length_ne_of_wrongSize hw), rfl⟩
  case unrecognized kind n payload =>
    obtain ⟨hf, hk⟩ := Bool.and_eq_true_iff.mp hw
    exact .inr ⟨_, hf, .unrecognized n payload (by simpa using hk), rfl⟩

/-! ### The stream decoder -/

/-- A length byte above 32 is header corruption, whatever stands behind it. -/
theorem decodeFrame_corrupt {kind length : Byte} (rest : List Byte) (h : 32 < length.toNat) :
    decodeFrame (kind :: length :: rest) = .ok (.hdrCorrupt kind length, rest) := if_pos h

/-- A whole Frame at the head of the stream is decoded to its row, and what follows is left. -/
theorem decodeFrame_bytes_append {f : Frame} (hw : f.wf = true) (rest : List Byte) :
    decodeFrame (f.bytes ++ rest) = .ok (classify f, rest) := by
  obtain ⟨kind, length, payload⟩ := f
  obtain ⟨hp, hl⟩ := (frame_wf_iff _).mp hw
  dsimp only at hp hl
  simp [decodeFrame, Frame.bytes, ← hp, Nat.not_lt.mpr (hp ▸ hl)]

/-- What the stream decoder answers: a corrupt header, or the row of the well-formed Frame at the head. -/
theorem decodeFrame_ok {bytes rest : List Byte} {i : Instr} (h : decodeFrame bytes = .ok (i, rest)) :
    (∃ kind length, i = .hdrCorrupt kind length ∧ 32 < length.toNat ∧ bytes = kind :: length :: rest) ∨
    (∃ f : Frame, f.wf = true ∧ i = classify f ∧ bytes = f.bytes ++ rest) := by
  match bytes with
  | [] | [_] => cases h
  | kind :: length :: tail =>
    simp only [decodeFrame] at h
    split_ifs at h with hc hs
    · cases h
      exact .inl ⟨kind, length, rfl, hc, rfl⟩
    · cases h
      refine .inr ⟨_, (frame_wf_iff _).mpr ⟨?_, Nat.not_lt.mp hc⟩, rfl, ?_⟩
      · simp only [List.length_take]; omega
      · simp [Frame.bytes]

/-- Settles O54: the encoding of a FRAME_RX row is a corrupt header or a whole Frame, and the decoder stops behind it. -/
theorem decodeFrameStopsAtTheFrameEnd : Obligations.DecodeFrameStopsAtTheFrameEnd := by
  intro i bytes rest hw he
  obtain ⟨kind, length, rfl, hl, rfl⟩ | ⟨f, hf, hrow, rfl⟩ := encode_frame_cases hw he
  · exact decodeFrame_corrupt rest hl
  · rw [decodeFrame_bytes_append hf, hrow.classify_eq]

/-- Settles O55: each of the two answers of the decoder encodes back to what it took. -/
theorem decodedFrameEncodesBackToItsBytes : Obligations.DecodedFrameEncodesBackToItsBytes := by
  intro bytes rest i h
  obtain ⟨kind, length, rfl, hl, rfl⟩ | ⟨f, hf, rfl, rfl⟩ := decodeFrame_ok h
  · exact ⟨decide_eq_true hl, _, rfl, rfl⟩
  · obtain ⟨hw, he⟩ := (isRow_classify f).wf_and_encode hf
    exact ⟨hw, f.bytes, he, rfl⟩

/-! ### Transactions -/

/-- The channel bit is read back. -/
theorem channelOfBit_bitOfChannel (ch : Channel) : channelOfBit (bitOfChannel ch) = ch := by
  cases ch <;> rfl

/-- The command port's fields are read back. -/
theorem decodeCommand_encodeCommand (c : Command) : decodeCommand (encodeCommand c) = c := by
  cases c with
  | getSettings ch => exact congrArg Command.getSettings (channelOfBit_bitOfChannel ch)
  | setSettings ch cs => exact congrArg (Command.setSettings · cs) (channelOfBit_bitOfChannel ch)
  | setSpeed ch v => exact congrArg (Command.setSpeed · v) (channelOfBit_bitOfChannel ch)
  | storeToFlash => rfl

/-- A command's row is decoded from its fields. -/
theorem decodePort_cmdRow (c : Command) : decodePort (.cmdRow (encodeCommand c)) = .ok (commandRow c) := by
  rw [decodePort, decodeCommand_encodeCommand]

/-- A well-formed Frame is read back from its bytes. -/
theorem frameFromBytes_bytes {f : Frame} (hw : f.wf = true) : frameFromBytes f.bytes = .ok f := by
  obtain ⟨kind, length, payload⟩ := f
  obtain ⟨hp, hl⟩ := (frame_wf_iff _).mp hw
  dsimp only at hp hl
  simp [frameFromBytes, Frame.bytes, ← hp, Nat.not_lt.mpr (hp ▸ hl)]

/-- What is read from bytes as a Frame is well-formed. -/
theorem frameFromBytes_wf {bytes : List Byte} {f : Frame} (h : frameFromBytes bytes = .ok f) : f.wf = true := by
  match bytes with
  | [] | [_] => cases h
  | kind :: length :: payload =>
    simp only [frameFromBytes] at h
    split_ifs at h with hc hs ht
    cases h
    exact (frame_wf_iff _).mpr ⟨Nat.le_antisymm (Nat.not_lt.mp ht) (Nat.not_lt.mp hs), Nat.not_lt.mp hc⟩

/-- The operations a transaction can stand for: none of them is a FRAME_RX row (spec/30_encoding.md R67). -/
theorem decodePort_ok {op : PortOp} {i : Instr} (h : decodePort op = .ok i) :
    (op = .rst ∧ i = .reset) ∨ (∃ b, op = .rx b ∧ i = .rxpush b) ∨ i = .poll ∨
      (∃ f : Frame, i = .dispatch f ∧ f.wf = true) ∨ i = .service ∨ (∃ c, i = .encode c) ∨ (∃ c, i = commandRow c) ∨ (∃ n, i = .txpop n) := by
  cases op with
  | dispatcher bytes =>
    simp only [decodePort] at h
    split at h
    · rename_i f hf
      cases h
      exact .inr (.inr (.inr (.inl ⟨f, rfl, frameFromBytes_wf hf⟩)))
    · cases h
  | _ => cases h; simp

/-- A command's row has no condition on its operands. -/
theorem commandRow_wf (c : Command) : (commandRow c).wf = true := by
  match c with
  | .getSettings .pitch | .getSettings .roll | .setSettings .pitch _ | .setSettings .roll _ | .setSpeed .pitch _
  | .setSpeed .roll _ | .storeToFlash => rfl

/-- A transaction decodes to a well-formed instruction. -/
theorem decodePort_wf {op : PortOp} {i : Instr} (h : decodePort op = .ok i) : i.wf = true := by
  obtain ⟨-, rfl⟩ | ⟨b, -, rfl⟩ | rfl | ⟨f, rfl, hf⟩ | rfl | ⟨c, rfl⟩ | ⟨c, rfl⟩ | ⟨n, rfl⟩ := decodePort_ok h
  exacts [rfl, rfl, rfl, hf, rfl, rfl, commandRow_wf c, rfl]

/-- A frame is decoded whole exactly when the stream decoder leaves nothing behind it. -/
theorem decode_frame_eq_ok {bytes : List Byte} {i : Instr} :
    decode (.frame bytes) = .ok i ↔ decodeFrame bytes = .ok (i, []) := by
  simp only [decode]
  split <;> simp_all

/-- Settles O56. -/
theorem decodeAnswersWellFormedInstructions : Obligations.DecodeAnswersWellFormedInstructions := by
  intro e i h
  cases e with
  | frame bytes => exact (decodedFrameEncodesBackToItsBytes bytes [] i (decode_frame_eq_ok.mp h)).1
  | port op => exact decodePort_wf h

/-- A transaction encoded from a well-formed instruction decodes to it. -/
theorem decodePort_of_encode {i : Instr} {op : PortOp} (hw : i.wf = true) (h : encode i = .port op) :
    decodePort op = .ok i := by
  cases i <;> cases h
  case dispatch f => rw [decodePort, frameFromBytes_bytes hw]
  case encode c => rw [decodePort, decodeCommand_encodeCommand]
  case reset | rxpush | poll | service | txpop => rfl
  all_goals exact decodePort_cmdRow _

/-- Settles O53: the rows encoded as frames by O54 with nothing behind the frame, the others by their ports. -/
theorem decodeInvertsEncode : Obligations.DecodeInvertsEncode := by
  intro i hw
  cases he : encode i with
  | frame bytes =>
    have h := decodeFrameStopsAtTheFrameEnd i bytes [] hw he
    rw [List.append_nil] at h
    exact decode_frame_eq_ok.mpr h
  | port op => exact decodePort_of_encode hw he

/-! ### Statements about particular headers -/

/-- A Frame at the head of the stream is decoded to the row the table gives it. -/
theorem IsRow.decodeFrame_eq {kind length : Byte} {payload : List Byte} {i : Instr}
    (h : IsRow ⟨kind, length, payload⟩ i) (hp : payload.length = length.toNat) (hl : length.toNat ≤ 32)
    (rest : List Byte) : decodeFrame (kind :: length :: (payload ++ rest)) = .ok (i, rest) := by
  have hd := decodeFrame_bytes_append ((frame_wf_iff ⟨kind, length, payload⟩).mpr ⟨hp, hl⟩) rest
  rwa [h.classify_eq] at hd

/-- The five kinds of the table, written as their bytes (spec/30_encoding.md R55). -/
theorem not_mem_recognizedKinds {kind : Byte} (h : kind ∉ [0x61#8, 0x62#8, 0x63#8, 0x64#8, 0x69#8]) :
    kind ∉ recognizedKinds := by
  have perm : List.Perm [0x61#8, 0x62#8, 0x63#8, 0x64#8, 0x69#8] recognizedKinds := by decide
  rwa [← perm.mem_iff]

/-- Settles O57: the corrupt header is decided before the payload; the other headers carry a Frame, whose row is the
table's. -/
theorem headerClassificationInPriorityOrder : Obligations.HeaderClassificationInPriorityOrder := by
  intro kind length payload rest hp
  refine ⟨decodeFrame_corrupt _, ?_, ?_, ?_⟩
  · intro hl hk
    exact (IsRow.unrecognized length payload (not_mem_recognizedKinds hk)).decodeFrame_eq hp hl rest
  · intro hl hn
    have h := length_ne_of_byte_ne hp hn
    exact ⟨(IsRow.mismatchA length h).decodeFrame_eq hp hl rest, (IsRow.mismatchC length h).decodeFrame_eq hp hl rest⟩
  · intro hl hn
    have h := length_ne_of_byte_ne hp hn
    exact ⟨(IsRow.mismatchB length h).decodeFrame_eq hp hl rest, (IsRow.mismatchD length h).decodeFrame_eq hp hl rest,
      (IsRow.mismatchI length h).decodeFrame_eq hp hl rest⟩

/-- Settles O58: the decoder evaluated on the words of the spec's examples. -/
theorem writtenOutWordsDecode : Obligations.WrittenOutWordsDecode := by
  unfold Obligations.WrittenOutWordsDecode
  decide

/-- Settles O59: `cmd_op` alone picks the command, and each command reads only its own fields. -/
theorem commandPortIgnoresUnreadFields : Obligations.CommandPortIgnoresUnreadFields :=
  fun _ _ _ _ => ⟨rfl, rfl, rfl, rfl⟩

/-- The two bytes of a settings report, packed as the event port does, are power in the low byte and flags above it. -/
theorem settingsData_toNat (power flags : Byte) :
    (0#16 ++ flags ++ power : Word).toNat = power.toNat + 256 * flags.toNat := by
  have hp := power.isLt
  rw [BitVec.toNat_append, BitVec.toNat_append, Nat.shiftLeft_eq, Nat.shiftLeft_eq, Nat.mul_comm _ (2 ^ 8),
    Nat.mul_comm _ (2 ^ 8), ← Nat.two_pow_add_eq_or_of_lt hp]
  simp
  omega

/-- Settles O60: the data of a settings report is the sum; the other fields are the packing itself. -/
theorem outputPortsPackEventsAndRecords : Obligations.OutputPortsPackEventsAndRecords := by
  intro ch power flags kind length v
  refine ⟨⟨_, settingsData_toNat power flags, ?_⟩, ?_, rfl, rfl⟩
  · cases ch <;> rfl
  · cases ch <;> rfl

end Sys2Proof.Proofs.Codec

/-! PROOFS. DISPATCH and the FRAME_RX rows (spec/41_dispatcher.md). A Frame and its row of the inbound table have the same
effect; every statement about a particular frame is that of its row, which delivers one event or rejects with one record. -/

namespace Sys2Proof.Proofs.Dispatch

open Sys2Proof.Machine Sys2Proof.Laws Sys2Proof.Proofs.Codec Sys2Proof.Proofs.Dispatcher

/-- An error of the Dispatcher appends its record, and the frame is consumed; nothing else changes. -/
theorem reject_eq_of_not_flushes {code : DiagCode} (h : code.flushes = false) (kind length : Byte) (s : State) :
    s.reject code kind length = { s with log := s.log ++ [⟨code, kind, length⟩], polled := none } := by
  simp [State.reject, State.raise, h, State.record, State.setPolled]

/-- An error of the framer also flushes RXQ and awaits a header. -/
theorem reject_eq_of_flushes {code : DiagCode} (h : code.flushes = true) (kind length : Byte) (s : State) :
    s.reject code kind length = { s with
      ps := .awaitingHeader, rxq := [], polled := none, log := s.log ++ [⟨code, kind, length⟩] } := by
  simp [State.reject, State.raise, h, State.record, State.recover, State.setPolled]

/-- The row of a Frame does what DISPATCH of the Frame does. -/
theorem exec_eq_dispatch_of_isRow {f : Frame} {i : Instr} (h : IsRow f i) (s : State) :
    exec i s = .next (s.dispatch f) := by
  cases h with
  | pitchSettings | rollSettings | pitchSpeed | rollSpeed | diagnostic => rfl
  | @mismatchA _ payload h | @mismatchC _ payload h =>
    match payload, h with
    | [], _ | [_], _ | _ :: _ :: _ :: _, _ => rfl
  | @mismatchB _ payload h | @mismatchD _ payload h | @mismatchI _ payload h =>
    match payload, h with
    | [], _ | [_], _ | [_, _], _ | [_, _, _], _ | _ :: _ :: _ :: _ :: _ :: _, _ => rfl
  | unrecognized _ _ h =>
    simp only [recognizedKinds, List.mem_cons, List.not_mem_nil, or_false, not_or] at h
    obtain ⟨ha, hc, hb, hd, hi⟩ := h
    simp [exec_unrecognized, State.dispatch, ha, hc, hb, hd, hi]

/-- Settles O26. -/
theorem frameRowAgreesWithDispatch : Obligations.FrameRowAgreesWithDispatch :=
  fun f s => exec_eq_dispatch_of_isRow (isRow_classify f) s

/-- DISPATCH of a Frame is exec of the row the table gives it. -/
theorem exec_dispatch_of_isRow {f : Frame} {i : Instr} (h : IsRow f i) (s : State) :
    exec (.dispatch f) s = exec i s := (exec_eq_dispatch_of_isRow h s).symm

/-- A row that rejects without a flush appends its record and nothing else, but that no Frame is held. -/
theorem next_reject {code : DiagCode} (h : code.flushes = false) (kind length : Byte) (s : State) :
    (Host.Outcome.next (s.reject code kind length) : Result) =
      .next { s with log := s.log ++ [⟨code, kind, length⟩], polled := none } :=
  congrArg Host.Outcome.next (reject_eq_of_not_flushes h kind length s)

/-- Settles O27: each report row delivers its event. -/
theorem reportRowsEmitTheirEvent : Obligations.ReportRowsEmitTheirEvent :=
  fun _ _ _ _ => ⟨rfl, rfl, rfl, rfl, rfl⟩

/-- Settles O28: each rejecting row raises an error that does not flush. -/
theorem rejectingRowsLogOneRecord : Obligations.RejectingRowsLogOneRecord :=
  fun s kind length _ => ⟨next_reject rfl _ length s, next_reject rfl _ length s, next_reject rfl _ length s,
    next_reject rfl _ length s, next_reject rfl _ length s, next_reject rfl kind length s⟩

/-- Settles O29: HDR_CORRUPT raises an error that flushes. -/
theorem corruptHeaderRowFlushesAndLogs : Obligations.CorruptHeaderRowFlushesAndLogs :=
  fun s kind length => congrArg Host.Outcome.next (reject_eq_of_flushes rfl kind length s)

/-- Settles O20: the frame's row is the roll settings report. -/
theorem dispatchRollSettingsEmitsPowerAndFlags : Obligations.DispatchRollSettingsEmitsPowerAndFlags := by
  intro s power flags
  exact (exec_dispatch_of_isRow (.rollSettings 2#8 power flags) s).trans (exec_rptRollSettings s power flags)

/-- Settles O21: the rows are the two speed readbacks, of the value `LE32` of the payload. -/
theorem dispatchSpeedReadbackIsLittleEndian : Obligations.DispatchSpeedReadbackIsLittleEndian := by
  intro s b0 b1 b2 b3
  refine ⟨le32 b0 b1 b2 b3, le32_toNat b0 b1 b2 b3, ?_, ?_⟩
  · exact (exec_dispatch_of_isRow (.pitchSpeed 4#8 b0 b1 b2 b3) s).trans (exec_rptPitchSpeed s _)
  · exact (exec_dispatch_of_isRow (.rollSpeed 4#8 b0 b1 b2 b3) s).trans (exec_rptRollSpeed s _)

/-- Settles O22: the row is the diagnostic, of the value `LE32` of the payload. -/
theorem dispatchDiagnosticIsLittleEndian : Obligations.DispatchDiagnosticIsLittleEndian := by
  intro s b0 b1 b2 b3
  exact ⟨le32 b0 b1 b2 b3, le32_toNat b0 b1 b2 b3,
    (exec_dispatch_of_isRow (.diagnostic 4#8 b0 b1 b2 b3) s).trans (exec_rptDiagnostic s _)⟩

/-- Settles O23: a well-formed Frame whose length is not the expected one has a size-mismatch row. -/
theorem dispatchWrongSizeLogsMismatch : Obligations.DispatchWrongSizeLogsMismatch := by
  rintro s ⟨kind, length, payload⟩ hw h
  have hp : payload.length = length.toNat := ((frame_wf_iff _).mp hw).1
  obtain ⟨hk, hn⟩ | ⟨hk, hn⟩ := h <;> have hne := length_ne_of_byte_ne hp hn
  · obtain rfl | rfl := hk
    · exact (exec_dispatch_of_isRow (.mismatchA length hne) s).trans (next_reject rfl _ length s)
    · exact (exec_dispatch_of_isRow (.mismatchC length hne) s).trans (next_reject rfl _ length s)
  · obtain rfl | rfl | rfl := hk
    · exact (exec_dispatch_of_isRow (.mismatchB length hne) s).trans (next_reject rfl _ length s)
    · exact (exec_dispatch_of_isRow (.mismatchD length hne) s).trans (next_reject rfl _ length s)
    · exact (exec_dispatch_of_isRow (.mismatchI length hne) s).trans (next_reject rfl _ length s)

/-- The row of a kind outside the table appends one UnrecognizedKind record and nothing else. -/
theorem exec_dispatch_of_unrecognized {f : Frame} (h : f.kind ∉ recognizedKinds) (s : State) :
    exec (.dispatch f) s =
      .next { s with log := s.log ++ [⟨.unrecognizedKind, f.kind, f.length⟩], polled := none } :=
  (exec_dispatch_of_isRow (.unrecognized f.length f.payload h) s).trans (next_reject rfl f.kind f.length s)

/-- Settles O24. -/
theorem dispatchUnknownKindLogsUnrecognized : Obligations.DispatchUnknownKindLogsUnrecognized :=
  fun s _ _ hk => exec_dispatch_of_unrecognized (not_mem_recognizedKinds hk) s

/-! ### What DISPATCH appends -/

/-- The events DISPATCH of a Frame appends to EVT: what it emits from a state that has output nothing. -/
def frameEvents (f : Frame) : List Event := (State.reset.dispatch f).evt

/-- The records DISPATCH of a Frame appends to LOG. -/
def frameRecords (f : Frame) : List Record := (State.reset.dispatch f).log

/-- DISPATCH appends the Frame's events and records, whatever the state, and consumes the Frame. -/
theorem dispatch_eq (f : Frame) (s : State) : s.dispatch f =
    { s with evt := s.evt ++ frameEvents f, log := s.log ++ frameRecords f, polled := none } := by
  unfold frameEvents frameRecords
  obtain ⟨e, h⟩ | h | h := dispatch_cases f
  · simp [h, deliver_eq, State.reset]
  · simp [h, reject_eq_of_not_flushes (code := .payloadSizeMismatch) rfl, State.reset]
  · simp [h, reject_eq_of_not_flushes (code := .unrecognizedKind) rfl, State.reset]

/-- A Frame has one event or one record. -/
theorem frameEvents_length_add_frameRecords_length (f : Frame) :
    (frameEvents f).length + (frameRecords f).length = 1 := by
  unfold frameEvents frameRecords
  obtain ⟨e, h⟩ | h | h := dispatch_cases f <;> simp [h, State.reset]

/-- Settles O25. -/
theorem dispatchOutcomeIsOneEventOrOneRecord : Obligations.DispatchOutcomeIsOneEventOrOneRecord :=
  fun f _ => ⟨frameEvents f, frameRecords f, frameEvents_length_add_frameRecords_length f,
    fun s => congrArg Host.Outcome.next (dispatch_eq f s)⟩

/-! ### Command frames looped back -/

/-- Only GetSettings is sent under a kind of the inbound table. -/
theorem frame_kind_not_mem_recognizedKinds (k : RollSpeedKind) {c : Command} (h : ∀ ch, c ≠ .getSettings ch) :
    (c.frame k).kind ∉ recognizedKinds := by
  match c with
  | .getSettings ch => exact absurd rfl (h ch)
  | .setSettings .pitch _ | .setSettings .roll _ | .setSpeed .pitch _ | .storeToFlash =>
    simp only [Command.frame, frameOf]
    decide
  | .setSpeed .roll _ =>
    simp only [Command.frame, frameOf]
    cases k <;> decide

/-- The frame of GetSettings has a settings report's kind and no payload, so its row is a size mismatch. -/
theorem exec_dispatch_getSettings_frame (k : RollSpeedKind) (ch : Channel) (s : State) :
    exec (.dispatch (Command.frame k (.getSettings ch))) s = .next { s with
      log := s.log ++ [⟨.payloadSizeMismatch, (Command.frame k (.getSettings ch)).kind,
        (Command.frame k (.getSettings ch)).length⟩], polled := none } := by
  cases ch with
  | pitch => exact (exec_dispatch_of_isRow (.mismatchA 0#8 (by simp)) s).trans (next_reject rfl _ _ s)
  | roll => exact (exec_dispatch_of_isRow (.mismatchC 0#8 (by simp)) s).trans (next_reject rfl _ _ s)

/-- Settles O37: the two kinds of commands have the two kinds of rejecting rows. -/
theorem loopedBackCommandIsNeverDecoded : Obligations.LoopedBackCommandIsNeverDecoded := by
  intro k c s
  by_cases hc : ∃ ch, c = .getSettings ch
  · obtain ⟨ch, rfl⟩ := hc
    exact ⟨.payloadSizeMismatch, exec_dispatch_getSettings_frame k ch s, by simp, by simp⟩
  · have hc' : ∀ ch, c ≠ .getSettings ch := not_exists.mp hc
    exact ⟨.unrecognizedKind, exec_dispatch_of_unrecognized (frame_kind_not_mem_recognizedKinds k hc') s,
      by simpa using hc', by simpa using hc'⟩

end Sys2Proof.Proofs.Dispatch

/-! PROOFS. RESET (spec/70_reset_and_hazards.md R161) and POLL (spec/40_framer.md). What one POLL does to the received
stream, the pending header followed by RXQ, is said once in `poll_outcome`; the bookkeeping of the retry count is the rules
R78 and R79 themselves. -/

namespace Sys2Proof.Proofs.Poll

open Sys2Proof.Machine Sys2Proof.Laws Sys2Proof.Proofs.Framer Sys2Proof.Proofs.Dispatch

/-- Settles O1: the reset state written out. -/
theorem resetLeavesParserAwaitingAndQueuesEmpty : Obligations.ResetLeavesParserAwaitingAndQueuesEmpty :=
  ⟨rfl, rfl, rfl, rfl, rfl, rfl⟩

/-- Settles O2: the reset state awaits a header and holds nothing. -/
theorem resetStateMeetsInvariant : Obligations.ResetStateMeetsInvariant :=
  ⟨rfl, rfl, rfl, rfl, rfl⟩

/-- Settles O3. -/
theorem resetClearsParserAndQueuesOnly : Obligations.ResetClearsParserAndQueuesOnly := exec_reset

/-! ### The cases of POLL that log or count -/

/-- What is left of a POLL that takes a corrupt header. -/
theorem poll_corrupt {s : State} {kind length : Byte} {rest : List Byte}
    (h : framer s.ps s.rxq = .corrupt kind length rest) : s.poll = s.reject .headerCorruption kind length := by
  simp [State.poll, State.reject, h]

/-- What is left of a POLL that gives up. -/
theorem poll_stall {s : State} {kind length : Byte} (h : framer s.ps s.rxq = .stall kind length) :
    s.poll = s.reject .payloadStall kind length := by
  simp [State.poll, State.reject, h]

/-- What is left of a POLL that keeps waiting. -/
theorem poll_retry {s : State} {kind length : Byte} {r : Nat} (h : framer s.ps s.rxq = .retry kind length r) :
    s.poll = (s.setPs (.awaitingPayload kind length r)).setPolled none := by
  simp [State.poll, h]

/-- Settles O5: the framer answers `corrupt`. -/
theorem pollCorruptHeaderFlushesAndLogs : Obligations.PollCorruptHeaderFlushesAndLogs := by
  intro s kind length rest hps hrxq hlength
  have hf : framer s.ps s.rxq = .corrupt kind length rest := by rw [hps, hrxq, framer_corrupt rest hlength]
  rw [exec_poll, poll_corrupt hf, reject_eq_of_flushes rfl]

/-- Settles O9: the framer answers `stall` or `retry`, by the count. -/
theorem pollCountsRetryThenStalls : Obligations.PollCountsRetryThenStalls := by
  intro s kind length r hps hshort
  rw [exec_poll]
  split_ifs with hr
  · have hf : framer s.ps s.rxq = .stall kind length := by rw [hps, framer_stall hshort hr]
    rw [poll_stall hf, reject_eq_of_flushes rfl]
  · have hf : framer s.ps s.rxq = .retry kind length (r + 1) := by rw [hps, framer_retry hshort hr]
    rw [poll_retry hf]
    rfl

/-- After two incomplete POLLs of a fresh header its count is 2, and nothing else has changed. -/
theorem poll_poll_of_count_zero {s : State} {kind length : Byte} (hps : s.ps = .awaitingPayload kind length 0)
    (hshort : s.rxq.length < length.toNat) :
    s.poll.poll = (s.setPs (.awaitingPayload kind length 2)).setPolled none := by
  have h1 : s.poll = (s.setPs (.awaitingPayload kind length 1)).setPolled none :=
    poll_retry (by rw [hps, framer_retry hshort (by omega)])
  have h2 : s.poll.poll = (s.poll.setPs (.awaitingPayload kind length 2)).setPolled none :=
    poll_retry (by rw [h1]; exact framer_retry hshort (by omega))
  rw [h2, h1]
  rfl

/-- Settles O12: at count 2 the next POLL stalls, unless late bytes complete the payload. -/
theorem retryBudgetIsTwoIncompletePolls : Obligations.RetryBudgetIsTwoIncompletePolls := by
  intro s kind length late hps hshort hlate
  obtain ⟨t, ht⟩ : ∃ t, t = (s.setPs (.awaitingPayload kind length 2)).setPolled none := ⟨_, rfl⟩
  have htps : t.ps = .awaitingPayload kind length 2 := by simp [ht]
  have htrxq : t.rxq = s.rxq := by simp [ht]
  have htlog : t.log = s.log := by simp [ht]
  have htpolled : t.polled = none := by simp [ht]
  have hrun : runAll [.poll, .poll] s = .next t :=
    (congrArg Host.Outcome.next (poll_poll_of_count_zero hps hshort)).trans (ht ▸ rfl)
  have hstall : t.poll = t.reject .payloadStall kind length :=
    poll_stall (by rw [htps, htrxq, framer_stall hshort (by omega)])
  have hlast : framer (.awaitingPayload kind length 2) (s.rxq ++ late) =
      .complete ⟨kind, length, (s.rxq ++ late).take length.toNat⟩ ((s.rxq ++ late).drop length.toNat) :=
    if_pos hlate
  have hcomplete := poll_complete (s := t.setRxq (t.rxq ++ late)) (by simpa [htps, htrxq] using hlast)
  refine ⟨t, (t.setRxq (t.rxq ++ late)).poll, hrun, htrxq, htlog, htpolled, ?_, exec_poll _, ?_, ?_⟩
  · rw [exec_poll, hstall, reject_eq_of_flushes rfl, htlog, htpolled]
  · simp [hcomplete, htlog]
  · simp [hcomplete]

/-! ### POLL and the received stream -/

/-- A pending header's conditions (spec/10_state.md R12). -/
theorem awaitingPayload_wf_iff {kind length : Byte} {r : Nat} : (ParserState.awaitingPayload kind length r).wf = true ↔
    1 ≤ length.toNat ∧ length.toNat ≤ 32 ∧ r ≤ 2 := by
  simp [ParserState.wf, maxPayload, retryLimit, and_assoc]

/-- What one POLL can do. It takes a whole Frame from the head of the stream; or it answers None and loses nothing, the
stream then ending within 31 bytes of RXQ; or it raises an error that flushes, header corruption for a length byte above
32 at the head of the stream. -/
theorem poll_outcome (s : State) :
    (∃ f q, s.ps.pending ++ s.rxq = f.bytes ++ q ∧ f.payload.length = f.length.toNat ∧
      (s.ps.wf = true → f.wf = true) ∧ s.poll = ((s.setRxq q).setPs .awaitingHeader).setPolled (some f)) ∨
    (∃ p q, p.pending ++ q = s.ps.pending ++ s.rxq ∧ q.length ≤ s.rxq.length ∧
      (s.ps.wf = true → p.wf = true ∧ q.length ≤ 31) ∧ s.poll = ((s.setRxq q).setPs p).setPolled none) ∨
    (∃ code kind length, code.flushes = true ∧ (s.ps.wf = true → Record.wf ⟨code, kind, length⟩ = true) ∧
      (code = .headerCorruption → 32 < length.toNat ∧ ∃ rest, s.ps.pending ++ s.rxq = kind :: length :: rest) ∧
      s.poll = s.reject code kind length) := by
  rcases framer_cases s.ps s.rxq with ⟨hps, hq, hf⟩ | ⟨kind, length, rest, hps, hq, hl, hf⟩ |
    ⟨kind, length, payload, rest, hps, hq, hp, hl, hf⟩ | ⟨kind, length, rest, hps, hq, hl, hr, hf⟩ |
    ⟨kind, length, r, payload, rest, hps, hq, hp, hf⟩ | ⟨kind, length, r, hps, hq, hr, hf⟩ |
    ⟨kind, length, r, hps, hq, hr, hf⟩
  · exact .inr (.inl ⟨s.ps, s.rxq, rfl, le_rfl, fun hw => ⟨hw, by omega⟩, poll_short hf⟩)
  · exact .inr (.inr ⟨.headerCorruption, kind, length, rfl, fun _ => by simpa [Record.wf, maxPayload] using hl,
      fun _ => ⟨hl, rest, by simp [hps, hq, ParserState.pending]⟩, poll_corrupt hf⟩)
  · exact .inl ⟨_, rest, by simp [hps, hq, ParserState.pending, Frame.bytes], hp,
      fun _ => (frame_wf_iff _).mpr ⟨hp, hl⟩, poll_complete hf⟩
  · refine .inr (.inl ⟨.awaitingPayload kind length 0, rest, by simp [hps, hq, ParserState.pending], ?_, ?_,
      poll_await hf⟩)
    · simp [hq]; omega
    · exact fun _ => ⟨awaitingPayload_wf_iff.mpr ⟨by omega, hl, by omega⟩, by omega⟩
  · refine .inl ⟨_, rest, by simp [hps, hq, ParserState.pending, Frame.bytes], hp, fun hw => ?_, poll_complete hf⟩
    obtain ⟨-, hl, -⟩ := awaitingPayload_wf_iff.mp (hps ▸ hw)
    exact (frame_wf_iff _).mpr ⟨hp, hl⟩
  · refine .inr (.inr ⟨.payloadStall, kind, length, rfl, fun hw => ?_, nofun, poll_stall hf⟩)
    obtain ⟨h1, hl, -⟩ := awaitingPayload_wf_iff.mp (hps ▸ hw)
    simp [Record.wf, maxPayload, h1, hl]
  · refine .inr (.inl ⟨.awaitingPayload kind length (r + 1), s.rxq, by simp [hps, ParserState.pending], le_rfl,
      fun hw => ?_, poll_retry hf⟩)
    obtain ⟨h1, hl, -⟩ := awaitingPayload_wf_iff.mp (hps ▸ hw)
    exact ⟨awaitingPayload_wf_iff.mpr ⟨h1, hl, by omega⟩, by omega⟩

/-- Settles O10: each of the three outcomes of POLL logs nothing, or one record and returns no Frame. -/
theorem pollIsTotalAndNeverReturnsAndLogs : Obligations.PollIsTotalAndNeverReturnsAndLogs := by
  intro s
  obtain ⟨-, -, htxq, hevt, hwire, -⟩ := poll_frame s
  obtain ⟨f, q, -, -, -, hpoll⟩ | ⟨p, q, -, -, -, hpoll⟩ | ⟨code, kind, length, -, -, -, hpoll⟩ := poll_outcome s
  · exact ⟨s.poll, [], exec_poll s, by simp [hpoll], by simp, fun _ => rfl, hevt, htxq, hwire⟩
  · exact ⟨s.poll, [], exec_poll s, by simp [hpoll], by simp, fun _ => rfl, hevt, htxq, hwire⟩
  · exact ⟨s.poll, [⟨code, kind, length⟩], exec_poll s, by simp [hpoll], by simp, fun h => absurd (by simp [hpoll]) h,
      hevt, htxq, hwire⟩

/-- Settles O11: the first outcome of POLL takes a Frame's bytes, the second none, and the third logs. -/
theorem pollLosesNoByteUnlessItFlushes : Obligations.PollLosesNoByteUnlessItFlushes := by
  intro s t h
  obtain rfl := next_inj h
  obtain ⟨f, q, hstream, hp, -, hpoll⟩ | ⟨p, q, hstream, -, -, hpoll⟩ | ⟨code, kind, length, -, -, -, hpoll⟩ :=
    poll_outcome s
  · refine ⟨fun g hg => ?_, fun hn => ?_⟩
    · obtain rfl : f = g := by simpa [hpoll] using hg
      exact ⟨by simp [hpoll, hstream], by simp [hpoll], hp⟩
    · simp [hpoll] at hn
  · exact ⟨fun g hg => by simp [hpoll] at hg, fun _ _ => by simpa [hpoll] using hstream⟩
  · exact ⟨fun g hg => by simp [hpoll] at hg, fun _ hlog => by simp [hpoll] at hlog⟩

/-- Bytes behind a Frame that is taken do not matter, and stay behind it. -/
theorem framer_complete_append {ps : ParserState} {q rest : List Byte} {f : Frame} (more : List Byte)
    (h : framer ps q = .complete f rest) : framer ps (q ++ more) = .complete f (rest ++ more) := by
  rcases framer_cases ps q with ⟨-, -, h'⟩ | ⟨_, _, _, -, -, -, h'⟩ |
    ⟨kind, length, payload, rest', rfl, rfl, hp, hl, h'⟩ | ⟨_, _, _, -, -, -, -, h'⟩ |
    ⟨kind, length, r, payload, rest', rfl, rfl, hp, h'⟩ | ⟨_, _, _, -, -, -, h'⟩ | ⟨_, _, _, -, -, -, h'⟩ <;>
    rw [h] at h' <;> cases h'
  · simpa using framer_complete (kind := kind) (rest ++ more) hp hl
  · simpa using framer_pending (kind := kind) r (rest ++ more) hp

/-- A Frame at the head of the stream is taken, from either parser state. -/
theorem framer_of_stream {ps : ParserState} {q rest : List Byte} {f : Frame} (hf : f.wf = true)
    (h : ps.pending ++ q = f.bytes ++ rest) : framer ps q = .complete f rest := by
  obtain ⟨kind, length, payload⟩ := f
  obtain ⟨hp, hl⟩ := (frame_wf_iff _).mp hf
  cases ps with
  | awaitingHeader =>
    obtain rfl : q = kind :: length :: (payload ++ rest) := h
    exact framer_complete rest hp hl
  | awaitingPayload kind' length' r =>
    simp only [ParserState.pending, Frame.bytes, List.cons_append, List.nil_append, List.cons.injEq] at h
    obtain ⟨rfl, rfl, rfl⟩ := h
    exact framer_pending r rest hp

/-- A Frame taken from the head of the stream leaves no more bytes than RXQ held: the pending header is part of it. -/
theorem length_le_of_stream {ps : ParserState} {q rest : List Byte} {f : Frame}
    (h : ps.pending ++ q = f.bytes ++ rest) : rest.length ≤ q.length := by
  have hlen := congrArg List.length h
  cases ps <;> simp [ParserState.pending, Frame.bytes] at hlen <;> omega

/-- Settles O13: the byte pushed first stands behind the Frame, and POLL leaves room for it. -/
theorem rxpushCommutesBackOverFramePoll : Obligations.RxpushCommutesBackOverFramePoll := by
  intro s t p b f hpoll ht hpush
  obtain rfl := next_inj hpoll
  obtain ⟨rest, hf⟩ := poll_polled_some.mp ht
  rw [exec_rxpush] at hpush
  split_ifs at hpush with hcap
  obtain rfl := next_inj hpush
  have hlen : rest.length ≤ s.rxq.length := by
    obtain ⟨hstream, -, -⟩ := (pollLosesNoByteUnlessItFlushes s s.poll (exec_poll s)).1 f ht
    rw [poll_complete hf] at hstream
    exact length_le_of_stream hstream
  have hpoll' := poll_complete (s := s.rxAppend b) (framer_complete_append [b] hf)
  refine ⟨(s.rxAppend b).poll, exec_poll _, by rw [hpoll']; rfl, ?_⟩
  have hcap' : withinCap s.poll.cfg.rxqCap (s.poll.rxq.length + 1) = true := by
    rw [poll_complete hf]
    exact withinCap_mono hcap (Nat.succ_le_succ hlen)
  rw [exec_rxpush, if_pos hcap', hpoll', poll_complete hf]
  rfl

end Sys2Proof.Proofs.Poll

/-! PROOFS. SERVICE (spec/43_link_ports.md section 1): the equation of its loop, the state before its last POLL, and what
it does to a queue of whole frames. -/

namespace Sys2Proof.Proofs.Service

open Sys2Proof.Machine Sys2Proof.Laws Sys2Proof.Proofs.Framer Sys2Proof.Proofs.Dispatch Sys2Proof.Proofs.Poll

/-- SERVICE ends with a POLL that returns None. -/
theorem service_of_polled_none {s : State} (h : s.poll.polled = none) : s.service = s.poll :=
  service_eq_of_serviceWithin (n := 1) (by simp [State.serviceWithin, h])

/-- SERVICE goes on behind the DISPATCH of a Frame its POLL returned. -/
theorem service_of_polled_some {s : State} {f : Frame} (h : s.poll.polled = some f) :
    s.service = (s.poll.dispatch f).service := by
  obtain ⟨u, hu⟩ := Option.isSome_iff_exists.mp (serviceWithin_isSome (s.poll.dispatch f))
  rw [service_eq_of_serviceWithin hu]
  exact service_eq_of_serviceWithin (n := (s.poll.dispatch f).rxq.length + 2 + 1)
    (by simpa [State.serviceWithin, h] using hu)

/-- Settles O14: the two equations of the loop. -/
theorem serviceIsPollUntilNoneDispatchingEachFrame : Obligations.ServiceIsPollUntilNoneDispatchingEachFrame := by
  intro s t h
  obtain rfl := next_inj h
  refine ⟨fun hn => congrArg Host.Outcome.next (service_of_polled_none hn), fun f u hf hu => ?_⟩
  obtain rfl := next_inj hu
  exact congrArg Host.Outcome.next (service_of_polled_some hf)

/-- What the POLLs of a SERVICE with their DISPATCHes keep holds when its last POLL, which returns None, begins. -/
theorem service_last_poll {P : State → Prop} (hsome : ∀ s f, P s → s.poll.polled = some f → P (s.poll.dispatch f))
    (s : State) (h : P s) : ∃ v, P v ∧ v.poll.polled = none ∧ s.service = v.poll := by
  cases hp : s.poll.polled with
  | none => exact ⟨s, h, hp, service_of_polled_none hp⟩
  | some f =>
    rw [service_of_polled_some hp]
    exact service_last_poll hsome _ (hsome s f h hp)
termination_by pollsLeft s
decreasing_by exact poll_some_pollsLeft hp

/-! ### The bound -/

/-- A POLL that returns a Frame leaves the parser awaiting a header, and DISPATCH keeps it so. -/
theorem poll_dispatch_ps {s : State} {f : Frame} (h : s.poll.polled = some f) :
    (s.poll.dispatch f).ps = .awaitingHeader := by
  obtain ⟨rest, hf⟩ := poll_polled_some.mp h
  obtain ⟨-, -, hps, -⟩ := dispatch_frame f s.poll
  rw [hps, poll_complete hf]
  rfl

/-- From a legal parser state a POLL that returns a Frame takes at least one byte of RXQ. -/
theorem poll_dispatch_rxq_length_lt {s : State} {f : Frame} (hw : s.ps.wf = true) (h : s.poll.polled = some f) :
    (s.poll.dispatch f).rxq.length < s.rxq.length := by
  obtain ⟨-, -, -, hrxq, -⟩ := dispatch_frame f s.poll
  obtain ⟨hstream, -, hp⟩ := (pollLosesNoByteUnlessItFlushes s s.poll (exec_poll s)).1 f h
  rw [hrxq]
  cases hps : s.ps with
  | awaitingHeader =>
    rw [hps, ParserState.pending] at hstream
    have := congrArg List.length hstream
    simp [Frame.bytes] at this
    omega
  | awaitingPayload kind length r =>
    rw [hps, ParserState.pending, Frame.bytes] at hstream
    obtain ⟨-, rfl, hq⟩ : kind = f.kind ∧ length = f.length ∧ s.rxq = f.payload ++ s.poll.rxq := by simpa using hstream
    obtain ⟨h1, -, -⟩ := awaitingPayload_wf_iff.mp (hps ▸ hw)
    rw [hq, List.length_append]
    omega

/-- From a legal parser state SERVICE needs at most one POLL more than RXQ has bytes. -/
theorem serviceWithin_isSome_of_wf {s : State} (hw : s.ps.wf = true) :
    (State.serviceWithin (s.rxq.length + 1) s).isSome := by
  cases hp : s.poll.polled with
  | none => simp [State.serviceWithin, hp]
  | some f =>
    simp only [State.serviceWithin, hp]
    apply serviceWithin_isSome_of_lt
    simpa [pollsLeft, poll_dispatch_ps hp] using poll_dispatch_rxq_length_lt hw hp

/-- A POLL that returns None from a legal parser state leaves at most 31 bytes. -/
theorem poll_rxq_length_le_of_none {s : State} (hw : s.ps.wf = true) (h : s.poll.polled = none) :
    s.poll.rxq.length ≤ 31 := by
  obtain ⟨f, q, -, -, -, hpoll⟩ | ⟨p, q, -, -, hp, hpoll⟩ | ⟨code, kind, length, hc, -, -, hpoll⟩ := poll_outcome s
  · simp [hpoll] at h
  · simpa [hpoll] using (hp hw).2
  · simp [hpoll, hc]

/-- Settles O15. -/
theorem serviceEndsWithinBoundLeavingShortQueue : Obligations.ServiceEndsWithinBoundLeavingShortQueue := by
  intro s ⟨hw, _⟩
  obtain ⟨t, ht⟩ := Option.isSome_iff_exists.mp (serviceWithin_isSome_of_wf hw)
  have hst : s.service = t := service_eq_of_serviceWithin ht
  obtain ⟨v, hv, hnone, hlast⟩ := service_last_poll (P := fun s => s.ps.wf = true)
    (fun s f _ hf => by rw [poll_dispatch_ps hf]; rfl) s hw
  obtain rfl : t = v.poll := hst.symm.trans hlast
  exact ⟨v.poll, congrArg Host.Outcome.next hst, ht, hnone, poll_rxq_length_le_of_none hv hnone⟩

/-! ### DISPATCH of several frames, and SERVICE over a queue of frames -/

/-- The DISPATCHes of several frames, one after the other. -/
def dispatchAll (fs : List Frame) (s : State) : State := fs.foldl (fun s f => s.dispatch f) s

/-- `dispatchAll` is the run of the DISPATCHes. -/
theorem runAll_dispatch (fs : List Frame) (s : State) : runAll (fs.map .dispatch) s = .next (dispatchAll fs s) := by
  induction fs generalizing s with
  | nil => rfl
  | cons f fs ih => exact ih (s.dispatch f)

/-- The DISPATCHes append the events and records of the frames, in order, and touch nothing else but the Frame held. -/
theorem dispatchAll_eq (fs : List Frame) (s : State) : dispatchAll fs s =
    { s with evt := s.evt ++ fs.flatMap frameEvents, log := s.log ++ fs.flatMap frameRecords,
             polled := if fs = [] then s.polled else none } := by
  induction fs generalizing s with
  | nil => simp [dispatchAll]
  | cons f fs ih =>
    have h : dispatchAll (f :: fs) s = dispatchAll fs (s.dispatch f) := rfl
    rw [h, ih, dispatch_eq]
    simp

/-- POLL does not look at the Frame held. -/
theorem poll_setPolled (s : State) (r : Option Frame) : (s.setPolled r).poll = s.poll := by
  unfold State.poll
  simp only [State.setPolled_ps, State.setPolled_rxq]
  cases framer s.ps s.rxq <;> rfl

/-- SERVICE does not look at the Frame held. -/
theorem service_setPolled (s : State) (r : Option Frame) : (s.setPolled r).service = s.service := by
  cases hp : s.poll.polled with
  | none => rw [service_of_polled_none hp, service_of_polled_none (by rwa [poll_setPolled]), poll_setPolled]
  | some f => rw [service_of_polled_some hp, service_of_polled_some (by rwa [poll_setPolled]), poll_setPolled]

/-- SERVICE over whole frames dispatches them in order and goes on with the bytes behind them. -/
theorem service_of_frames {fs : List Frame} (hfs : ∀ f ∈ fs, f.wf = true) {tail : List Byte} {s : State}
    (hps : s.ps = .awaitingHeader) (hrxq : s.rxq = fs.flatMap Frame.bytes ++ tail) :
    s.service = (dispatchAll fs ((s.setRxq tail).setPolled none)).service := by
  induction fs generalizing s with
  | nil =>
    obtain rfl : s.rxq = tail := hrxq
    exact (service_setPolled s none).symm
  | cons f fs ih =>
    have hf : framer s.ps s.rxq = .complete f (fs.flatMap Frame.bytes ++ tail) :=
      framer_of_stream (hfs f List.mem_cons_self) (by simp [hps, hrxq, ParserState.pending])
    have hpolled : s.poll.polled = some f := poll_polled_some.mpr ⟨_, hf⟩
    have hnext : ((s.poll.dispatch f).setRxq tail).setPolled none =
        ((s.setRxq tail).setPolled none).dispatch f := by
      rw [poll_complete hf, setPs_eq_self (by simpa using hps), dispatch_eq, dispatch_eq]
      rfl
    rw [service_of_polled_some hpolled,
      ih (fun g hg => hfs g (List.mem_cons_of_mem f hg)) (poll_dispatch_ps hpolled) ?_, hnext]
    · rfl
    · obtain ⟨-, -, -, h, -⟩ := dispatch_frame f s.poll
      rw [h, poll_complete hf]
      rfl

/-- SERVICE with fewer than two bytes and no header taken does nothing but answer that no Frame is held. -/
theorem service_of_short {s : State} (hps : s.ps = .awaitingHeader) (hshort : s.rxq.length < 2) :
    s.service = s.setPolled none := by
  have hpoll : s.poll = s.setPolled none := poll_short (by rw [hps, framer_short hshort])
  rw [service_of_polled_none (by rw [hpoll]; rfl), hpoll]

/-- Settles O16: nothing is left behind the frames, so the last POLL changes nothing. -/
theorem serviceDispatchesWholeStreamInOrder : Obligations.ServiceDispatchesWholeStreamInOrder := by
  intro fs s hfs hps hrxq
  have hservice := service_of_frames (tail := []) hfs hps (by simpa using hrxq)
  obtain ⟨v, hv⟩ : ∃ v, v = dispatchAll fs ((s.setRxq []).setPolled none) := ⟨_, rfl⟩
  have hend : v.service = v.setPolled none := by
    rw [dispatchAll_eq] at hv
    exact service_of_short (by simpa [hv] using hps) (by simp [hv])
  have hpolled : v.setPolled none = v := by simp [hv, dispatchAll_eq, State.setPolled]
  rw [runAll_dispatch, exec_service, hservice, ← hv, hend, hpolled, hv]
  rfl

end Sys2Proof.Proofs.Service

/-! PROOFS. The Command Encoder and TXPOP (spec/42_encoder.md, spec/43_link_ports.md section 2). Every operation that sends
a command is one `transmit` of the bytes it encodes; where the capacity holds them they are appended whole. -/

namespace Sys2Proof.Proofs.Encoder

open Sys2Proof.Machine Sys2Proof.Laws

/-- `transmit` over the capacity is refused by name. -/
theorem transmit_of_not_withinCap {bytes : List Byte} {s : State}
    (h : withinCap s.cfg.txqCap (s.txq.length + bytes.length) = false) : s.transmit bytes = .refused .txqFull := by
  simp [State.transmit, h]

/-- Settles O30: both frames are two bytes. -/
theorem getSettingsRowsAppendHeaderOnly : Obligations.GetSettingsRowsAppendHeaderOnly :=
  fun s h => ⟨(exec_getSettingsPitch s).trans (transmit_of_withinCap h),
    (exec_getSettingsRoll s).trans (transmit_of_withinCap h)⟩

/-- Settles O31: both frames are four bytes. -/
theorem setSettingsRowsAppendPowerAndFlags : Obligations.SetSettingsRowsAppendPowerAndFlags :=
  fun s power flags _ h => ⟨rfl, rfl, (exec_setSettingsPitch s power flags).trans (transmit_of_withinCap h),
    (exec_setSettingsRoll s power flags).trans (transmit_of_withinCap h)⟩

/-- The bytes of a value are its quotients by the powers of 256, least significant first (spec/20_memory.md R30). -/
theorem bytesLE32_eq_ofNat (v : Word) : bytesLE32 v = [BitVec.ofNat 8 v.toNat, BitVec.ofNat 8 (v.toNat / 256),
    BitVec.ofNat 8 (v.toNat / 65536), BitVec.ofNat 8 (v.toNat / 16777216)] := by
  simp [bytesLE32, BitVec.extractLsb', Nat.shiftRight_eq_div_pow]

/-- Settles O32. -/
theorem setSpeedPitchAppendsLittleEndianValue : Obligations.SetSpeedPitchAppendsLittleEndianValue := by
  intro s power flags v h
  rw [← bytesLE32_eq_ofNat]
  exact ⟨rfl, (exec_setSpeedPitch s v).trans (transmit_of_withinCap h)⟩

/-- The byte of the configured kind of SetSpeed(roll) (spec/00_scope.md R4). -/
theorem toByte_eq_ite (k : RollSpeedKind) : k.toByte = if k = .observedC then 0x43#8 else 0x44#8 := by
  cases k <;> rfl

/-- Settles O33. -/
theorem setSpeedRollAppendsConfiguredKind : Obligations.SetSpeedRollAppendsConfiguredKind := by
  intro s v h
  rw [← bytesLE32_eq_ofNat, ← toByte_eq_ite]
  exact (exec_setSpeedRoll s v).trans (transmit_of_withinCap h)

/-- Settles O34. -/
theorem storeToFlashAppendsItsFrame : Obligations.StoreToFlashAppendsItsFrame :=
  fun s _ _ _ _ h => ⟨rfl, (exec_storeToFlash s).trans (transmit_of_withinCap h)⟩

/-- A command's row is ENCODE of the command. -/
theorem exec_commandRow (c : Command) (s : State) : exec (commandRow c) s = exec (.encode c) s := by
  match c with
  | .getSettings .pitch | .getSettings .roll | .setSettings .pitch _ | .setSettings .roll _ | .setSpeed .pitch _
  | .setSpeed .roll _ | .storeToFlash => rfl

/-- Settles O35. -/
theorem encodeAppendsEncAndAgreesWithItsRow : Obligations.EncodeAppendsEncAndAgreesWithItsRow :=
  fun s c => ⟨(exec_commandRow c s).symm, fun h => (exec_encode s c).trans (transmit_of_withinCap h)⟩

/-- Dec reads back what Enc writes, by length first and kind second. -/
theorem dec_enc (k : RollSpeedKind) (c : Command) : Command.dec k (c.enc k) = some c := by
  match c with
  | .getSettings .pitch | .getSettings .roll | .setSettings .pitch _ | .setSettings .roll _ | .storeToFlash => rfl
  | .setSpeed .pitch v => exact congrArg (fun v => some (Command.setSpeed .pitch v)) (le32_bytesLE32 v)
  | .setSpeed .roll v =>
    cases k <;> exact congrArg (fun v => some (Command.setSpeed .roll v)) (le32_bytesLE32 v)

/-- Every outbound frame is a Frame, of length 0, 2 or 4. -/
theorem frame_wf_and_length (k : RollSpeedKind) (c : Command) :
    (c.frame k).wf = true ∧ (c.frame k).length ∈ [0#8, 2#8, 4#8] := by
  match c with
  | .getSettings .pitch | .getSettings .roll | .setSettings .pitch _ | .setSettings .roll _ | .setSpeed .pitch _
  | .setSpeed .roll _ | .storeToFlash => exact ⟨rfl, by simp [Command.frame, frameOf]⟩

/-- Settles O36. -/
theorem decInvertsEncAndOutboundFramesFit : Obligations.DecInvertsEncAndOutboundFramesFit :=
  fun k c => ⟨dec_enc k c, frame_wf_and_length k c⟩

/-- Settles O39. -/
theorem txpopSendsHeadOfQueue : Obligations.TxpopSendsHeadOfQueue :=
  fun s n h => (exec_txpop s n).trans (if_pos h)

/-- Settles O40: each operation takes the branch that refuses. -/
theorem meaninglessQueueAccessIsRefused : Obligations.MeaninglessQueueAccessIsRefused := by
  intro s b c n
  refine ⟨fun h => ?_, fun h => ?_, fun h => ?_⟩
  · rw [exec_rxpush, if_neg (by simp [h])]
  · rw [exec_commandRow, exec_encode]
    exact ⟨transmit_of_not_withinCap h, transmit_of_not_withinCap h⟩
  · rw [exec_txpop, if_neg (by omega)]

end Sys2Proof.Proofs.Encoder

/-! PROOFS. The two sides of the block (spec/20_memory.md R43 to R46). The instructions of each side are a few shared
operations; a transmit-side operation reads and writes TXQ and the sent bytes only, and a receive-side operation does not
look at them, so the two commute. -/

namespace Sys2Proof.Proofs.Sides

open Sys2Proof.Machine Sys2Proof.Laws Sys2Proof.Proofs.Service

/-- An operation of the transmit side sends the bytes it encodes, or is TXPOP. -/
theorem exec_of_side_transmit {i : Instr} (h : side i = .transmit) :
    (∀ s, exec i s = s.transmit (txBytes s.cfg.rollSpeed i)) ∨ ∃ n, i = .txpop n := by
  cases i
  case txpop n => exact .inr ⟨n, rfl⟩
  case getSettingsPitch | getSettingsRoll | setSettingsPitch | setSettingsRoll | setSpeedPitch | setSpeedRoll |
      storeToFlash | encode => exact .inl fun _ => rfl
  all_goals cases h

/-- An operation of the receive side delivers an event, raises an error, pushes a byte, polls or services. -/
theorem exec_of_side_receive {i : Instr} (h : side i = .receive) :
    (∃ e, ∀ s, exec i s = .next (s.deliver e)) ∨
    (∃ code kind length, ∀ s, exec i s = .next (s.reject code kind length)) ∨
    (∃ b, i = .rxpush b) ∨ i = .poll ∨ i = .service := by
  cases i
  case rptPitchSettings | rptRollSettings | rptPitchSpeed | rptRollSpeed | rptDiagnostic =>
    exact .inl ⟨_, fun _ => rfl⟩
  case hdrCorrupt | sizeMismatchA | sizeMismatchC | sizeMismatchB | sizeMismatchD | sizeMismatchI | unrecognized =>
    exact .inr (.inl ⟨_, _, _, fun _ => rfl⟩)
  case dispatch f =>
    obtain ⟨e, hd⟩ | hd | hd := dispatch_cases f
    · exact .inl ⟨e, fun s => congrArg Host.Outcome.next (hd s)⟩
    · exact .inr (.inl ⟨_, _, _, fun s => congrArg Host.Outcome.next (hd s)⟩)
    · exact .inr (.inl ⟨_, _, _, fun s => congrArg Host.Outcome.next (hd s)⟩)
  case rxpush b => exact .inr (.inr (.inl ⟨b, rfl⟩))
  case poll => simp
  case service => simp
  all_goals cases h

/-- Only RESET works on both sides. -/
theorem eq_reset_of_side_both {i : Instr} (h : side i = .both) : i = .reset := by
  cases i <;> cases h
  rfl

/-- Only an operation of the transmit side encodes anything. -/
theorem txBytes_of_side_ne_transmit {i : Instr} (h : side i ≠ .transmit) (k : RollSpeedKind) : txBytes k i = [] := by
  cases i
  case getSettingsPitch | getSettingsRoll | setSettingsPitch | setSettingsRoll | setSpeedPitch | setSpeedRoll |
      storeToFlash | encode => exact absurd rfl h
  all_goals rfl

/-- RXPUSH answers a next state only by appending its byte. -/
theorem rxpush_next {b : Byte} {s t : State} (h : exec (.rxpush b) s = .next t) :
    withinCap s.cfg.rxqCap (s.rxq.length + 1) = true ∧ t = s.rxAppend b := by
  rw [exec_rxpush] at h
  split_ifs at h with hc
  exact ⟨hc, next_inj h⟩

/-- TXPOP answers a next state only by taking bytes the queue holds. -/
theorem txpop_next {n : Nat} {s t : State} (h : exec (.txpop n) s = .next t) :
    n ≤ s.txq.length ∧ t = s.txTake n := by
  rw [exec_txpop] at h
  split_ifs at h with hn
  exact ⟨hn, next_inj h⟩

/-! ### What each side leaves alone -/

/-- A state with another transmit queue and other sent bytes. -/
def withTx (txq wire : List Byte) (s : State) : State := { s with txq := txq, wire := wire }

/-- An operation of the transmit side changes TXQ and the sent bytes only. -/
theorem transmit_side_frame {i : Instr} {s t : State} (hside : side i = .transmit) (h : exec i s = .next t) :
    t = withTx t.txq t.wire s := by
  obtain htx | ⟨n, rfl⟩ := exec_of_side_transmit hside
  · rw [htx] at h
    obtain ⟨-, rfl⟩ := transmit_next h
    rfl
  · obtain ⟨-, rfl⟩ := txpop_next h
    rfl

/-- An operation of the receive side leaves TXQ, the sent bytes and what is the model's own alone. -/
theorem receive_side_frame {i : Instr} {s t : State} (hside : side i = .receive) (h : exec i s = .next t) :
    t.txq = s.txq ∧ t.wire = s.wire ∧ t.booted = s.booted ∧ t.cfg = s.cfg ∧ t.script = s.script := by
  obtain ⟨e, he⟩ | ⟨code, kind, length, he⟩ | ⟨b, rfl⟩ | rfl | rfl := exec_of_side_receive hside
  · rw [he] at h
    simp [next_inj h]
  · rw [he] at h
    simp [next_inj h]
  · simp [(rxpush_next h).2]
  · obtain ⟨hcfg, hbooted, htxq, -, hwire, hscript⟩ := poll_frame s
    obtain rfl := next_inj h
    exact ⟨htxq, hwire, hbooted, hcfg, hscript⟩
  · obtain ⟨hcfg, hbooted, htxq, hwire, hscript⟩ := service_frame s
    obtain rfl := next_inj h
    exact ⟨htxq, hwire, hbooted, hcfg, hscript⟩

/-- Settles O44. -/
theorem eachSideLeavesTheOtherAlone : Obligations.EachSideLeavesTheOtherAlone := by
  intro i s t h
  cases hside : side i with
  | transmit =>
    rw [transmit_side_frame hside h]
    simp [withTx]
  | receive =>
    obtain ⟨htxq, hwire, hbooted, hcfg, hscript⟩ := receive_side_frame hside h
    simp [htxq, hwire, hbooted, hcfg, hscript]
  | both =>
    obtain rfl := eq_reset_of_side_both hside
    rw [exec_reset] at h
    simp [next_inj h]

/-- Settles O43: the transmit side appends what it encodes or moves bytes from TXQ to the wire, the receive side encodes
nothing. -/
theorem sentAndQueuedBytesAreTheEncodedFrames : Obligations.SentAndQueuedBytesAreTheEncodedFrames := by
  intro i s t hi h
  cases hside : side i with
  | transmit =>
    obtain htx | ⟨n, rfl⟩ := exec_of_side_transmit hside
    · rw [htx] at h
      simp [(transmit_next h).2]
    · simp [(txpop_next h).2, txBytes]
  | receive =>
    obtain ⟨htxq, hwire, -⟩ := receive_side_frame hside h
    simp [htxq, hwire, txBytes_of_side_ne_transmit (i := i) (by simp [hside])]
  | both => exact absurd (eq_reset_of_side_both hside) hi

/-! ### The two sides commute -/

/-- POLL does not look at the transmit side. -/
theorem poll_withTx (q w : List Byte) (s : State) : (withTx q w s).poll = withTx q w s.poll := by
  have hps : (withTx q w s).ps = s.ps := rfl
  have hrxq : (withTx q w s).rxq = s.rxq := rfl
  unfold State.poll
  rw [hps, hrxq]
  cases framer s.ps s.rxq <;> rfl

/-- An error is raised without a look at the transmit side. -/
theorem reject_withTx (q w : List Byte) (code : DiagCode) (kind length : Byte) (s : State) :
    (withTx q w s).reject code kind length = withTx q w (s.reject code kind length) := by
  cases code <;> rfl

/-- DISPATCH does not look at the transmit side. -/
theorem dispatch_withTx (q w : List Byte) (f : Frame) (s : State) :
    (withTx q w s).dispatch f = withTx q w (s.dispatch f) := by
  obtain ⟨e, hd⟩ | hd | hd := dispatch_cases f
  · rw [hd, hd]; rfl
  · rw [hd, hd, reject_withTx]
  · rw [hd, hd, reject_withTx]

/-- SERVICE does not look at the transmit side. -/
theorem service_withTx (q w : List Byte) (s : State) : (withTx q w s).service = withTx q w s.service := by
  cases hp : s.poll.polled with
  | none => rw [service_of_polled_none hp, service_of_polled_none (by rwa [poll_withTx]), poll_withTx]
  | some f =>
    rw [service_of_polled_some hp, service_of_polled_some (by rwa [poll_withTx]), poll_withTx, dispatch_withTx]
    exact service_withTx q w (s.poll.dispatch f)
termination_by pollsLeft s
decreasing_by exact poll_some_pollsLeft hp

/-- An operation of the receive side does the same whatever the transmit side holds. -/
theorem exec_withTx {i : Instr} {s t : State} (hside : side i = .receive) (h : exec i s = .next t)
    (q w : List Byte) : exec i (withTx q w s) = .next (withTx q w t) := by
  obtain ⟨e, he⟩ | ⟨code, kind, length, he⟩ | ⟨b, rfl⟩ | rfl | rfl := exec_of_side_receive hside
  · rw [he] at h ⊢
    rw [next_inj h]
    rfl
  · rw [he] at h ⊢
    rw [next_inj h, reject_withTx]
  · obtain ⟨hc, rfl⟩ := rxpush_next h
    exact (exec_rxpush _ b).trans (if_pos hc)
  · rw [exec_poll, poll_withTx, next_inj h]
  · rw [exec_service, service_withTx, next_inj h]

/-- An operation of the transmit side does the same in every state with the same configuration, TXQ and sent bytes. -/
theorem exec_transmit_side_congr {i : Instr} {s s' t : State} (hside : side i = .transmit) (h : exec i s = .next t)
    (hcfg : s'.cfg = s.cfg) (htxq : s'.txq = s.txq) (hwire : s'.wire = s.wire) :
    exec i s' = .next (withTx t.txq t.wire s') := by
  obtain htx | ⟨n, rfl⟩ := exec_of_side_transmit hside
  · rw [htx] at h ⊢
    obtain ⟨hc, rfl⟩ := transmit_next h
    rw [transmit_of_withinCap (by rwa [hcfg, htxq])]
    simp [State.txAppend, withTx, hcfg, htxq, hwire]
  · obtain ⟨hn, rfl⟩ := txpop_next h
    rw [exec_txpop, if_pos (htxq ▸ hn)]
    simp [State.txTake, withTx, htxq, hwire]

/-- Settles O45: in either order the receive side sees the same receive side, and the transmit side the same TXQ and sent
bytes. -/
theorem operationsOfDifferentSidesCommute : Obligations.OperationsOfDifferentSidesCommute := by
  rintro i j s a b (⟨hi, hj⟩ | ⟨hi, hj⟩) ha hb
  · obtain ⟨htxq, hwire, -, hcfg, -⟩ := receive_side_frame hi ha
    refine ⟨_, exec_transmit_side_congr hj hb hcfg.symm htxq.symm hwire.symm, ?_⟩
    rw [exec_withTx hi ha, ← transmit_side_frame hj hb]
  · have hsa : withTx s.txq s.wire a = s := by rw [transmit_side_frame hi ha]; rfl
    obtain ⟨htxq, hwire, -, hcfg, -⟩ := receive_side_frame hj hb
    have hacfg : a.cfg = s.cfg := by rw [transmit_side_frame hi ha]; rfl
    have hc := exec_withTx hj hb s.txq s.wire
    rw [hsa] at hc
    refine ⟨_, hc, ?_⟩
    rw [exec_transmit_side_congr hi ha (s' := withTx s.txq s.wire b) (hcfg.trans hacfg) rfl rfl, ← htxq, ← hwire]
    rfl

/-! ### Every operation is enabled -/

/-- Settles O46: only a capacity or a TXPOP beyond the queue stops an operation. -/
theorem everyOperationIsAlwaysEnabled : Obligations.EveryOperationIsAlwaysEnabled := by
  intro i s hrx htx hpop
  cases hside : side i with
  | transmit =>
    obtain h | ⟨n, rfl⟩ := exec_of_side_transmit hside
    · exact ⟨_, (h s).trans (transmit_of_withinCap (by rw [htx]; rfl))⟩
    · exact ⟨_, (exec_txpop s n).trans (if_pos (hpop n rfl))⟩
  | receive =>
    obtain ⟨e, he⟩ | ⟨code, kind, length, he⟩ | ⟨b, rfl⟩ | rfl | rfl := exec_of_side_receive hside
    · exact ⟨_, he s⟩
    · exact ⟨_, he s⟩
    · exact ⟨_, (exec_rxpush s b).trans (if_pos (by rw [hrx]; rfl))⟩
    · exact ⟨_, exec_poll s⟩
    · exact ⟨_, exec_service s⟩
  | both =>
    obtain rfl := eq_reset_of_side_both hside
    exact ⟨_, exec_reset s⟩

end Sys2Proof.Proofs.Sides

/-! PROOFS. The owner's mirror (spec/10_state.md R24): the last event decides it, if it is a settings report of the
channel. -/

namespace Sys2Proof.Proofs.Mirror

open Sys2Proof.Machine

/-- The events behind the first decide the mirror before it does. -/
theorem mirror_cons (ch : Channel) (e : Event) (es : List Event) :
    mirror ch (e :: es) = (mirror ch es).or (mirror ch [e]) := by
  simp only [mirror]
  cases mirror ch es <;> rfl

/-- An event that reports settings of the channel overwrites the mirror; another leaves it. -/
theorem mirror_append_singleton (ch : Channel) (es : List Event) (e : Event) :
    mirror ch (es ++ [e]) = (mirror ch [e]).or (mirror ch es) := by
  induction es with
  | nil => simp [mirror]
  | cons e' es ih =>
    rw [List.cons_append, mirror_cons, ih, mirror_cons ch e' es, Option.or_assoc]

/-- Settles O47. -/
theorem mirrorFollowsSettingsReports : Obligations.MirrorFollowsSettingsReports := by
  refine ⟨fun es ch ch' power flags => ?_, fun es ch ch' v => ⟨?_, ?_⟩⟩
  · rw [mirror_append_singleton]
    by_cases h : ch' = ch <;> simp [mirror, h]
  · rw [mirror_append_singleton]
    rfl
  · rw [mirror_append_singleton]
    rfl

end Sys2Proof.Proofs.Mirror

/-! PROOFS. The step (spec/20_memory.md R37 to R42): a scheduled transaction is admitted and run or refused by name, and the
step on the received stream is a POLL followed by the DISPATCH of the Frame it returned. -/

namespace Sys2Proof.Proofs.Step

open Sys2Proof.Machine Sys2Proof.Laws Sys2Proof.Proofs.Framer Sys2Proof.Proofs.Codec Sys2Proof.Proofs.Dispatch
open Sys2Proof.Proofs.Poll

/-! ### Scheduled transactions -/

/-- An admitted transaction is run. -/
theorem step_port_of_admitted {s : State} {op : PortOp} {rest : List Slot} {i : Instr}
    (hs : s.script = .port op :: rest) (hd : decodePort op = .ok i) (hr : s.refusal i = none) :
    step s = exec i (s.setScript rest) := by
  simp only [step, fetch_port hs hd, hr]

/-- A transaction that is not admitted is refused for the reason it is not. -/
theorem step_port_of_refusal {s : State} {op : PortOp} {rest : List Slot} {i : Instr} {r : Refusal}
    (hs : s.script = .port op :: rest) (hd : decodePort op = .ok i) (hr : s.refusal i = some r) :
    step s = .refused r := by
  simp only [step, fetch_port hs hd, hr]

/-- A transaction that does not decode is refused with the decoder's reason. -/
theorem step_port_of_error {s : State} {op : PortOp} {rest : List Slot} {e : DecodeError}
    (hs : s.script = .port op :: rest) (hd : decodePort op = .error e) : step s = .refused (.undecodable e) := by
  simp only [step, fetch, hs, hd]

/-- Before the first RESET everything else is refused. -/
theorem refusal_of_not_booted {s : State} {i : Instr} (hb : s.booted = false) (hi : i ≠ .reset) :
    s.refusal i = some .beforeReset := if_pos ⟨hb, hi⟩

/-- After it, what is out of POLL order is refused. -/
theorem refusal_of_not_inOrder {s : State} {i : Instr} (hb : s.booted = true) (ho : s.inOrder i = false) :
    s.refusal i = some .outOfPollOrder := by
  simp [State.refusal, hb, ho]

/-- A command's row keeps the order of POLL and DISPATCH. -/
theorem inOrder_commandRow (c : Command) (s : State) : s.inOrder (commandRow c) = true := by
  match c with
  | .getSettings .pitch | .getSettings .roll | .setSettings .pitch _ | .setSettings .roll _ | .setSpeed .pitch _
  | .setSpeed .roll _ | .storeToFlash => rfl

/-- A decoded transaction is in order when POLL and SERVICE find no Frame held, and DISPATCH finds its own. -/
theorem inOrder_of_decodePort {s : State} {op : PortOp} {i : Instr} (hd : decodePort op = .ok i)
    (hpoll : i = .poll ∨ i = .service → s.polled = none) (hdispatch : ∀ f, i = .dispatch f → s.polled = some f) :
    s.inOrder i = true := by
  obtain ⟨-, rfl⟩ | ⟨b, -, rfl⟩ | rfl | ⟨f, rfl, -⟩ | rfl | ⟨c, rfl⟩ | ⟨c, rfl⟩ | ⟨n, rfl⟩ := decodePort_ok hd
  exacts [rfl, rfl, Option.isNone_iff_eq_none.mpr (hpoll (.inl rfl)), decide_eq_true (hdispatch f rfl),
    Option.isNone_iff_eq_none.mpr (hpoll (.inr rfl)), rfl, inOrder_commandRow c s, rfl]

/-- Settles O48: the premises are what admits the transaction. -/
theorem stepRunsScheduledTransaction : Obligations.StepRunsScheduledTransaction := by
  intro s op rest i hs hd hb hpoll hdispatch
  exact step_port_of_admitted hs hd (refusal_eq_none.mpr ⟨hb, inOrder_of_decodePort hd hpoll hdispatch⟩)

/-- Settles O51. -/
theorem stepWithNothingScheduledChangesNothing : Obligations.StepWithNothingScheduledChangesNothing := by
  intro s hs
  simp only [step, fetch, hs]

/-! ### The received stream -/

/-- What the stream fetch gives is admitted exactly as a POLL is: an instruction fetched from the stream is not RESET and
is in order when no Frame is held. -/
theorem fetchStream_cases (s : State) :
    (∃ i t, fetchStream s = .run i t ∧ i ≠ .reset ∧ ∀ u : State, u.inOrder i = u.polled.isNone) ∨
    (∃ t, fetchStream s = .noFrame t) := by
  unfold fetchStream
  cases framer s.ps s.rxq with
  | corrupt kind length queue => exact .inl ⟨_, _, rfl, by simp, fun _ => rfl⟩
  | complete f queue => exact .inl ⟨_, _, rfl, classify_ne_reset f, inOrder_classify f⟩
  | short | await | stall | retry => exact .inr ⟨_, rfl⟩

/-- The step on the stream is refused when every operation that polls is. -/
theorem step_stream_of_refusal {s : State} {rest : List Slot} {r : Refusal} (hs : s.script = .stream :: rest)
    (hr : ∀ i, i ≠ .reset → s.inOrder i = s.polled.isNone → s.refusal i = some r) : step s = .refused r := by
  unfold step
  rw [fetch_stream hs]
  obtain ⟨i, t, hf, hi, ho⟩ | ⟨t, hf⟩ := fetchStream_cases (s.setScript rest)
  · simp only [hf, hr i hi (ho s)]
  · simp only [hf, hr .poll (by simp) rfl]

/-- Settles O52: each clause names the condition that refuses. -/
theorem noOperationBeforeFirstResetIllFormedOrOutOfPollOrder :
    Obligations.NoOperationBeforeFirstResetIllFormedOrOutOfPollOrder := by
  intro s op rest
  refine ⟨fun hb i hs hd hi => ?_, fun hb hs => ?_, fun e hs hd => ?_, fun hb f hs hd hf => ?_, fun hb f hf hs => ?_⟩
  · exact step_port_of_refusal hs hd (refusal_of_not_booted hb hi)
  · exact step_stream_of_refusal hs fun i hi _ => refusal_of_not_booted hb hi
  · exact step_port_of_error hs hd
  · exact step_port_of_refusal hs hd (refusal_of_not_inOrder hb (decide_eq_false hf))
  · have hheld : s.polled.isNone = false := by simp [hf]
    obtain hs | hs | hs := hs
    · exact step_port_of_refusal hs rfl (refusal_of_not_inOrder (i := .poll) hb hheld)
    · exact step_port_of_refusal hs rfl (refusal_of_not_inOrder (i := .service) hb hheld)
    · exact step_stream_of_refusal hs fun i _ ho => refusal_of_not_inOrder hb (ho.trans hheld)

section stream

variable {s : State} {rest : List Slot} (hb : s.booted = true) (hp : s.polled = none)
  (hs : s.script = .stream :: rest)

include hb hp hs

/-- An instruction fetched from the stream is run when no Frame is held. -/
theorem step_stream_of_run {i : Instr} {t : State} (hf : fetchStream (s.setScript rest) = .run i t)
    (ho : s.inOrder i = s.polled.isNone) : step s = exec i t := by
  have hr : s.refusal i = none := refusal_eq_none.mpr ⟨.inl hb, by rw [ho, hp]; rfl⟩
  unfold step
  rw [fetch_stream hs]
  simp only [hf, hr]

/-- A Frame at the head of the stream is taken and its row is run. -/
theorem step_stream_of_complete {f : Frame} {queue : List Byte} (hf : framer s.ps s.rxq = .complete f queue) :
    step s = exec (classify f) (((s.setScript rest).setRxq queue).setPs .awaitingHeader) :=
  step_stream_of_run hb hp hs (by simp [fetchStream, hf]) (inOrder_classify f s)

/-- A corrupt header at the head of the stream is taken and its row is run. -/
theorem step_stream_of_corrupt {kind length : Byte} {queue : List Byte}
    (hf : framer s.ps s.rxq = .corrupt kind length queue) :
    step s = exec (.hdrCorrupt kind length) ((s.setScript rest).setRxq queue) :=
  step_stream_of_run hb hp hs (by simp [fetchStream, hf]) rfl

/-- Where the stream gives no instruction, the step is the POLL. -/
theorem step_stream_of_noFrame (hf : fetchStream (s.setScript rest) = .noFrame (s.setScript rest).poll) :
    step s = .next (s.setScript rest).poll := by
  have hr : s.refusal .poll = none := refusal_eq_none.mpr ⟨.inl hb, by simp [State.inOrder, hp]⟩
  unfold step
  rw [fetch_stream hs]
  simp only [hf, hr]

/-- The step on the stream is the POLL when that returns None: a corrupt header's row flushes as the POLL does. -/
theorem step_stream_of_polled_none (hn : (s.setScript rest).poll.polled = none) :
    step s = .next (s.setScript rest).poll := by
  cases hf : framer s.ps s.rxq with
  | corrupt kind length queue =>
    rw [step_stream_of_corrupt hb hp hs hf, exec_hdrCorrupt, poll_corrupt (s := s.setScript rest) hf,
      reject_eq_of_flushes rfl, reject_eq_of_flushes rfl]
    rfl
  | complete f queue =>
    have := poll_polled_some (s := s.setScript rest).mpr ⟨queue, hf⟩
    simp [hn] at this
  | short | await | stall | retry => exact step_stream_of_noFrame hb hp hs (by simp [fetchStream, hf])

/-- The step on the stream is POLL and DISPATCH when the POLL returns a Frame. -/
theorem step_stream_of_polled_some {f : Frame} (hn : (s.setScript rest).poll.polled = some f) :
    step s = .next ((s.setScript rest).poll.dispatch f) := by
  obtain ⟨queue, hf⟩ := poll_polled_some.mp hn
  rw [step_stream_of_complete hb hp hs hf, frameRowAgreesWithDispatch, exec_dispatch, poll_complete hf, dispatch_eq,
    dispatch_eq]
  rfl

end stream

/-- Settles O50. -/
theorem stepOnStreamIsPollThenDispatch : Obligations.StepOnStreamIsPollThenDispatch := by
  intro s t rest hb hp hs h
  obtain rfl := next_inj h
  exact ⟨fun hn => step_stream_of_polled_none hb hp hs hn, fun f hn => step_stream_of_polled_some hb hp hs hn⟩

/-- Settles O49: what is encoded as a frame is a corrupt header, which cannot be a pending one, or a Frame, which the
framer takes from either parser state. -/
theorem stepRunsFrameAtHeadOfStream : Obligations.StepRunsFrameAtHeadOfStream := by
  intro s i bytes queue rest hb hp hs hw he hps hstream
  obtain ⟨kind, length, rfl, hl, rfl⟩ | ⟨f, hf, hrow, rfl⟩ := encode_frame_cases hw he
  · obtain hps | ⟨kind', length', r, hps, hl'⟩ := hps
    · rw [hps] at hstream
      have hframer : framer s.ps s.rxq = .corrupt kind length queue := by
        have hq : s.rxq = kind :: length :: queue := hstream
        rw [hps, hq, framer_corrupt queue hl]
      have hself : ((s.setScript rest).setRxq queue).setPs .awaitingHeader = (s.setScript rest).setRxq queue :=
        setPs_eq_self hps
      rw [step_stream_of_corrupt hb hp hs hframer, ← hself]
      rfl
    · rw [hps, ParserState.pending] at hstream
      obtain ⟨-, rfl, -⟩ : kind' = kind ∧ length' = length ∧ s.rxq = queue := by simpa using hstream
      omega
  · rw [step_stream_of_complete hb hp hs (framer_of_stream hf hstream), hrow.classify_eq]
    rfl

/-- What a step that answers a next state did, the stream in terms of POLL and DISPATCH. -/
theorem step_cases {s t : State} (h : step s = .next t) :
    (s.script = [] ∧ t = s) ∨
    (∃ op rest i, s.script = .port op :: rest ∧ decodePort op = .ok i ∧ s.inOrder i = true ∧
      exec i (s.setScript rest) = .next t) ∨
    (∃ rest, s.script = .stream :: rest ∧ s.polled = none ∧
      (((s.setScript rest).poll.polled = none ∧ t = (s.setScript rest).poll) ∨
        ∃ f, (s.setScript rest).poll.polled = some f ∧ t = (s.setScript rest).poll.dispatch f)) := by
  obtain ⟨hs, rfl⟩ | ⟨op, rest, i, hs, hd, hr, hx⟩ | ⟨rest, hs, hp, hb, -⟩ := step_next h
  · exact .inl ⟨hs, rfl⟩
  · exact .inr (.inl ⟨op, rest, i, hs, hd, (refusal_eq_none.mp hr).2, hx⟩)
  · refine .inr (.inr ⟨rest, hs, hp, ?_⟩)
    cases hn : (s.setScript rest).poll.polled with
    | none => exact .inl ⟨rfl, next_inj ((step_stream_of_polled_none hb hp hs hn).symm.trans h)⟩
    | some f => exact .inr ⟨f, rfl, next_inj ((step_stream_of_polled_some hb hp hs hn).symm.trans h)⟩

end Sys2Proof.Proofs.Step

/-! PROOFS. The invariant (spec/10_state.md R12, spec/20_memory.md R46, spec/60_exceptions.md R135): each operation that a
step can run keeps it. -/

namespace Sys2Proof.Proofs.Invariant

open Sys2Proof.Machine Sys2Proof.Laws Sys2Proof.Proofs.Codec Sys2Proof.Proofs.Dispatch Sys2Proof.Proofs.Poll
open Sys2Proof.Proofs.Encoder Sys2Proof.Proofs.Sides Sys2Proof.Proofs.Step

/-- A size-mismatch record is in its range. -/
theorem mismatch_record_wf {kind n length : Byte} (he : expectedSize kind = some n) (hl : length.toNat ≤ 32)
    (hn : length ≠ n) : Record.wf ⟨.payloadSizeMismatch, kind, length⟩ = true := by
  simp [Record.wf, maxPayload, hl, he, hn]

/-- An unrecognized-kind record is in its range. -/
theorem unrecognized_record_wf {kind length : Byte} (hk : kind ∉ recognizedKinds) (hl : length.toNat ≤ 32) :
    Record.wf ⟨.unrecognizedKind, kind, length⟩ = true := by
  simp only [recognizedKinds, List.mem_cons, List.not_mem_nil, or_false, not_or] at hk
  obtain ⟨ha, hc, hb, hd, hi⟩ := hk
  simp [Record.wf, maxPayload, hl, expectedSize, ha, hb, hc, hd, hi]

/-- A delivered event keeps the invariant. -/
theorem inv_deliver {s : State} (h : s.Inv) (e : Event) : (s.deliver e).Inv := by
  obtain ⟨hps, hrx, htx, -, hlog⟩ := h
  exact ⟨hps, hrx, htx, rfl, hlog⟩

/-- An error whose record is in its range keeps the invariant, with or without a flush. -/
theorem inv_reject {s : State} (h : s.Inv) {code : DiagCode} {kind length : Byte}
    (hr : Record.wf ⟨code, kind, length⟩ = true) : (s.reject code kind length).Inv := by
  obtain ⟨hps, hrx, htx, -, hlog⟩ := h
  have hlog' : (s.log ++ [(⟨code, kind, length⟩ : Record)]).all Record.wf = true := by
    rw [List.all_append, hlog, List.all_cons, hr]
    rfl
  cases hc : code.flushes with
  | true =>
    rw [reject_eq_of_flushes hc]
    exact ⟨rfl, withinCap_mono hrx (Nat.zero_le _), htx, rfl, hlog'⟩
  | false =>
    rw [reject_eq_of_not_flushes hc]
    exact ⟨hps, hrx, htx, rfl, hlog'⟩

/-- DISPATCH of a well-formed Frame keeps the invariant: its row delivers an event or logs a record in its range. -/
theorem inv_dispatch {s : State} (hs : s.Inv) {f : Frame} (hf : f.wf = true) : (s.dispatch f).Inv := by
  obtain ⟨hp, hl⟩ := (frame_wf_iff f).mp hf
  have hrow := isRow_classify f
  have hexec := exec_eq_dispatch_of_isRow hrow s
  generalize classify f = i at hrow hexec
  cases hrow with
  | pitchSettings | rollSettings | pitchSpeed | rollSpeed | diagnostic =>
    rw [next_inj hexec]
    exact inv_deliver hs _
  | mismatchA n hn | mismatchC n hn =>
    rw [next_inj hexec]
    exact inv_reject hs (mismatch_record_wf (n := settingsSize) rfl hl
      fun h => hn (hp.trans (congrArg BitVec.toNat h)))
  | mismatchB n hn | mismatchD n hn | mismatchI n hn =>
    rw [next_inj hexec]
    exact inv_reject hs (mismatch_record_wf (n := wordSize) rfl hl
      fun h => hn (hp.trans (congrArg BitVec.toNat h)))
  | unrecognized n payload hk =>
    rw [next_inj hexec]
    exact inv_reject hs (unrecognized_record_wf hk hl)

/-- POLL keeps the invariant. -/
theorem inv_poll {s : State} (hs : s.Inv) : s.poll.Inv := by
  obtain ⟨hps, hrx, htx, -, hlog⟩ := id hs
  obtain ⟨f, q, hstream, -, hf, hpoll⟩ | ⟨p, q, -, hq, hp, hpoll⟩ | ⟨code, kind, length, -, hr, -, hpoll⟩ :=
    poll_outcome s
  · rw [hpoll]
    exact ⟨rfl, withinCap_mono hrx (length_le_of_stream hstream), htx, hf hps, hlog⟩
  · rw [hpoll]
    exact ⟨(hp hps).1, withinCap_mono hrx hq, htx, rfl, hlog⟩
  · rw [hpoll]
    exact inv_reject hs (hr hps)

/-- POLL and the DISPATCH of the Frame it returned keep the invariant. -/
theorem inv_poll_dispatch {s : State} (hs : s.Inv) {f : Frame} (hf : s.poll.polled = some f) :
    (s.poll.dispatch f).Inv := by
  have hp := inv_poll hs
  obtain ⟨-, -, -, hheld, -⟩ := id hp
  exact inv_dispatch hp (by simpa [hf] using hheld)

/-- The append of a frame within the capacity keeps the invariant. -/
theorem inv_transmit {s t : State} (hs : s.Inv) {bytes : List Byte} (h : s.transmit bytes = .next t) : t.Inv := by
  obtain ⟨hcap, rfl⟩ := transmit_next h
  obtain ⟨hps, hrx, -, hheld, hlog⟩ := hs
  exact ⟨hps, hrx, by simpa using hcap, hheld, hlog⟩

/-- Whatever a transaction decodes to keeps the invariant. -/
theorem inv_exec_of_decodePort {s t : State} (hs : s.Inv) {op : PortOp} {i : Instr} (hd : decodePort op = .ok i)
    (h : exec i s = .next t) : t.Inv := by
  obtain ⟨hps, hrx, htx, hheld, hlog⟩ := id hs
  obtain ⟨-, rfl⟩ | ⟨b, -, rfl⟩ | rfl | ⟨f, rfl, hf⟩ | rfl | ⟨c, rfl⟩ | ⟨c, rfl⟩ | ⟨n, rfl⟩ := decodePort_ok hd
  · rw [next_inj h]
    exact ⟨rfl, withinCap_mono hrx (Nat.zero_le _), withinCap_mono htx (Nat.zero_le _), rfl, hlog⟩
  · obtain ⟨hcap, rfl⟩ := rxpush_next h
    exact ⟨hps, by simpa using hcap, htx, hheld, hlog⟩
  · rw [next_inj h]
    exact inv_poll hs
  · rw [next_inj h]
    exact inv_dispatch hs hf
  · rw [next_inj h]
    exact service_induction (P := fun s => s.Inv) (fun _ hs _ => inv_poll hs) (fun _ _ hs hf => inv_poll_dispatch hs hf)
      s hs
  · exact inv_transmit hs h
  · rw [exec_commandRow] at h
    exact inv_transmit hs h
  · obtain ⟨-, rfl⟩ := txpop_next h
    exact ⟨hps, hrx, withinCap_mono htx (by simp), hheld, hlog⟩

/-- Settles O41: nothing, a transaction, or POLL and DISPATCH. -/
theorem stepKeepsInvariant : Obligations.StepKeepsInvariant := by
  intro s t hs h
  have hsched : ∀ rest, (s.setScript rest).Inv := fun _ => hs
  obtain ⟨-, rfl⟩ | ⟨op, rest, i, -, hd, -, hx⟩ | ⟨rest, -, -, ⟨-, rfl⟩ | ⟨f, hf, rfl⟩⟩ := step_cases h
  · exact hs
  · exact inv_exec_of_decodePort (hsched rest) hd hx
  · exact inv_poll (hsched rest)
  · exact inv_poll_dispatch (hsched rest) hf

end Sys2Proof.Proofs.Invariant

/-! PROOFS. The received stream in the order it came (spec/20_memory.md R42): what each operation takes from the head of
the stream, what that adds to EVT and LOG, and what is lost to a flush or a RESET. -/

namespace Sys2Proof.Proofs.StreamOrder

open Sys2Proof.Machine Sys2Proof.Laws Sys2Proof.Proofs.Codec Sys2Proof.Proofs.Dispatch Sys2Proof.Proofs.Poll
open Sys2Proof.Proofs.Service Sys2Proof.Proofs.Encoder Sys2Proof.Proofs.Sides Sys2Proof.Proofs.Step

/-- The account of a run from `s` to `t`: the stream of `s` and the bytes pushed are the bytes of the frames dispatched,
the bytes lost and the stream of `t`; EVT and LOG grow by what the frames add, and LOG by the records `rs`. -/
structure Accounts (s t : State) (pushed : List Byte) (fs : List Frame) (lost : List Byte)
    (rs : List Record) : Prop where
  stream : s.inbound ++ pushed = fs.flatMap Frame.bytes ++ lost ++ t.inbound
  evt : t.evt = s.evt ++ fs.flatMap frameEvents
  log : t.log = s.log ++ fs.flatMap frameRecords ++ rs

/-- Bytes are lost only with the record of a flush or by a RESET, and then nothing of the stream is left. -/
structure LostOnlyBy (reset : Prop) (t : State) (lost : List Byte) (rs : List Record) : Prop where
  atMostOne : rs.length ≤ 1
  ofFlush : ∀ r ∈ rs, r.code = .headerCorruption ∨ r.code = .payloadStall
  nothingLeft : lost = [] ∨ t.inbound = [] ∧ (rs ≠ [] ∨ reset)

/-- Where nothing is lost and nothing logged, nothing has to be accounted for. -/
theorem lostOnlyBy_nil (reset : Prop) (t : State) : LostOnlyBy reset t [] [] :=
  ⟨Nat.zero_le 1, nofun, .inl rfl⟩

/-- A RESET that is none excuses no loss. -/
theorem LostOnlyBy.imp {reset reset' : Prop} {t : State} {lost : List Byte} {rs : List Record}
    (h : LostOnlyBy reset t lost rs) (hr : reset → reset') : LostOnlyBy reset' t lost rs :=
  ⟨h.atMostOne, h.ofFlush, h.nothingLeft.imp_right fun ⟨hi, hlost⟩ => ⟨hi, hlost.imp_right hr⟩⟩

/-- Accounts of two runs one after the other, if the first loses nothing. -/
theorem Accounts.trans {s v t : State} {fs gs : List Frame} {lost : List Byte} {rs : List Record}
    (h : Accounts s v [] fs [] []) (h' : Accounts v t [] gs lost rs) : Accounts s t [] (fs ++ gs) lost rs := by
  obtain ⟨hs, he, hl⟩ := h
  obtain ⟨hs', he', hl'⟩ := h'
  simp only [List.append_nil] at hs hl hs'
  exact ⟨by simp [hs, hs'], by simp [he, he'], by simp [hl, hl']⟩

/-- The schedule does not enter the account. -/
theorem Accounts.of_setScript {s t : State} {script : List Slot} {pushed lost : List Byte} {fs : List Frame}
    {rs : List Record} (h : Accounts (s.setScript script) t pushed fs lost rs) : Accounts s t pushed fs lost rs :=
  ⟨h.stream, h.evt, h.log⟩

/-- A run that changes neither the stream nor the outputs. -/
theorem accounts_of_unchanged {s t : State} (hi : t.inbound = s.inbound) (he : t.evt = s.evt) (hl : t.log = s.log) :
    Accounts s t [] [] [] [] := ⟨by simp [hi], by simp [he], by simp [hl]⟩

/-- The stream is read from three fields. -/
theorem inbound_congr {s t : State} (hheld : t.polled = s.polled) (hps : t.ps = s.ps) (hrxq : t.rxq = s.rxq) :
    t.inbound = s.inbound := by
  unfold State.inbound
  rw [hheld, hps, hrxq]

/-- With no Frame held the stream is the pending header and RXQ. -/
theorem inbound_of_polled_none {s : State} (h : s.polled = none) : s.inbound = s.ps.pending ++ s.rxq := by
  simp [State.inbound, h]

/-- With a Frame held the stream begins with its bytes. -/
theorem inbound_of_polled_some {s : State} {f : Frame} (h : s.polled = some f) :
    s.inbound = f.bytes ++ (s.ps.pending ++ s.rxq) := by
  simp [State.inbound, h]

/-- DISPATCH of the Frame held takes its bytes from the stream. -/
theorem accounts_dispatch {s : State} {f : Frame} (h : s.polled = some f) :
    Accounts s (s.dispatch f) [] [f] [] [] := by
  obtain ⟨-, -, hps, hrxq, -, -, hheld, -⟩ := dispatch_frame f s
  refine ⟨?_, by simp [dispatch_eq], by simp [dispatch_eq]⟩
  rw [inbound_of_polled_some h, inbound_of_polled_none hheld, hps, hrxq]
  simp

/-- POLL holds the Frame at the head of the stream, or leaves the stream, or loses it to a flush. -/
theorem accounts_poll {s : State} (h : s.polled = none) :
    ∃ lost rs, Accounts s s.poll [] [] lost rs ∧ LostOnlyBy False s.poll lost rs := by
  have hs := inbound_of_polled_none h
  obtain ⟨f, q, hstream, -, -, hpoll⟩ | ⟨p, q, hstream, -, -, hpoll⟩ | ⟨code, kind, length, hc, -, -, hpoll⟩ :=
    poll_outcome s
  · refine ⟨[], [], accounts_of_unchanged ?_ (by simp [hpoll]) (by simp [hpoll]), lostOnlyBy_nil _ _⟩
    rw [hs, hstream, inbound_of_polled_some (f := f) (by simp [hpoll])]
    simp [hpoll, ParserState.pending]
  · refine ⟨[], [], accounts_of_unchanged ?_ (by simp [hpoll]) (by simp [hpoll]), lostOnlyBy_nil _ _⟩
    rw [hs, ← hstream, inbound_of_polled_none (by simp [hpoll])]
    simp [hpoll]
  · have hempty : s.poll.inbound = [] := by
      rw [inbound_of_polled_none (by simp [hpoll])]
      simp [hpoll, hc, ParserState.pending]
    refine ⟨s.inbound, [⟨code, kind, length⟩], ⟨by simp [hempty], by simp [hpoll], by simp [hpoll]⟩, le_rfl, ?_,
      .inr ⟨hempty, .inl (by simp)⟩⟩
    intro r hr
    obtain rfl := List.mem_singleton.mp hr
    cases code with
    | headerCorruption => exact .inl rfl
    | payloadStall => exact .inr rfl
    | payloadSizeMismatch | unrecognizedKind => cases hc

/-- POLL and the DISPATCH of the Frame it returned take the Frame's bytes from the stream. -/
theorem accounts_poll_dispatch {s : State} {f : Frame} (h : s.polled = none) (hf : s.poll.polled = some f) :
    Accounts s (s.poll.dispatch f) [] [f] [] [] := by
  obtain ⟨lost, rs, ha, hlost⟩ := accounts_poll h
  have hlog : s.poll.log = s.log := by
    obtain ⟨rest, hc⟩ := poll_polled_some.mp hf
    simp [poll_complete hc]
  obtain rfl : rs = [] := by simpa [hlog] using ha.log
  obtain rfl : lost = [] := by
    obtain hl | ⟨hempty, -⟩ := hlost.nothingLeft
    · exact hl
    · simp [inbound_of_polled_some hf, Frame.bytes] at hempty
  exact ha.trans (accounts_dispatch hf)

/-- SERVICE takes whole frames from the stream until its last POLL. -/
theorem accounts_service {s : State} (h : s.polled = none) :
    ∃ fs lost rs, Accounts s s.service [] fs lost rs ∧ LostOnlyBy False s.service lost rs := by
  have hsome : ∀ v f, (v.polled = none ∧ ∃ fs, Accounts s v [] fs [] []) → v.poll.polled = some f →
      ((v.poll.dispatch f).polled = none ∧ ∃ fs, Accounts s (v.poll.dispatch f) [] fs [] []) := by
    rintro v f ⟨hv, fs, ha⟩ hf
    obtain ⟨-, -, -, -, -, -, hheld, -⟩ := dispatch_frame f v.poll
    exact ⟨hheld, fs ++ [f], ha.trans (accounts_poll_dispatch hv hf)⟩
  obtain ⟨v, ⟨hv, fs, ha⟩, -, hlast⟩ := service_last_poll hsome s ⟨h, [], accounts_of_unchanged rfl rfl rfl⟩
  obtain ⟨lost, rs, ha', hlost⟩ := accounts_poll hv
  rw [hlast]
  exact ⟨fs ++ [], lost, rs, ha.trans ha', hlost⟩

/-- An operation of the transmit side leaves the stream and the outputs alone. -/
theorem accounts_of_side_transmit {i : Instr} {s t : State} (hside : side i = .transmit) (h : exec i s = .next t) :
    Accounts s t [] [] [] [] := by
  obtain ⟨-, -, ht, -⟩ := eachSideLeavesTheOtherAlone i s t h
  obtain ⟨hps, hrxq, hevt, hlog, hheld, -⟩ := ht hside
  exact accounts_of_unchanged (inbound_congr hheld hps hrxq) hevt hlog

/-- A command's row works on the transmit side. -/
theorem side_commandRow (c : Command) : side (commandRow c) = .transmit := by
  match c with
  | .getSettings .pitch | .getSettings .roll | .setSettings .pitch _ | .setSettings .roll _ | .setSpeed .pitch _
  | .setSpeed .roll _ | .storeToFlash => rfl

/-- The account of a scheduled transaction. -/
theorem accounts_port {s t : State} {op : PortOp} {i : Instr} (hd : decodePort op = .ok i) (ho : s.inOrder i = true)
    (h : exec i s = .next t) : ∃ pushed fs lost rs, Accounts s t pushed fs lost rs ∧
      LostOnlyBy (op = .rst) t lost rs ∧ (pushed = [] ∨ ∃ b, op = .rx b ∧ pushed = [b]) := by
  have quiet : side i = .transmit → ∃ pushed fs lost rs, Accounts s t pushed fs lost rs ∧
      LostOnlyBy (op = .rst) t lost rs ∧ (pushed = [] ∨ ∃ b, op = .rx b ∧ pushed = [b]) :=
    fun hside => ⟨[], [], [], [], accounts_of_side_transmit hside h, lostOnlyBy_nil _ _, .inl rfl⟩
  obtain ⟨rfl, rfl⟩ | ⟨b, rfl, rfl⟩ | rfl | ⟨f, rfl, -⟩ | rfl | ⟨c, rfl⟩ | ⟨c, rfl⟩ | ⟨n, rfl⟩ := decodePort_ok hd
  · rw [exec_reset] at h
    obtain rfl := next_inj h
    exact ⟨[], [], s.inbound, [], ⟨by simp [State.inbound, ParserState.pending], by simp, by simp⟩,
      ⟨Nat.zero_le 1, nofun, .inr ⟨rfl, .inr rfl⟩⟩, .inl rfl⟩
  · obtain ⟨-, rfl⟩ := rxpush_next h
    exact ⟨[b], [], [], [], ⟨by simp [State.inbound], by simp, by simp⟩, lostOnlyBy_nil _ _, .inr ⟨b, rfl, rfl⟩⟩
  · obtain rfl := next_inj h
    obtain ⟨lost, rs, ha, hlost⟩ := accounts_poll (Option.isNone_iff_eq_none.mp ho)
    exact ⟨[], [], lost, rs, ha, hlost.imp False.elim, .inl rfl⟩
  · obtain rfl := next_inj h
    exact ⟨[], [f], [], [], accounts_dispatch (of_decide_eq_true ho), lostOnlyBy_nil _ _, .inl rfl⟩
  · obtain rfl := next_inj h
    obtain ⟨fs, lost, rs, ha, hlost⟩ := accounts_service (Option.isNone_iff_eq_none.mp ho)
    exact ⟨[], fs, lost, rs, ha, hlost.imp False.elim, .inl rfl⟩
  · exact quiet rfl
  · exact quiet (side_commandRow c)
  · exact quiet rfl

/-- What a step does to the stream, whatever it runs. -/
theorem accounts_step {s t : State} (h : step s = .next t) : ∃ pushed fs lost rs, Accounts s t pushed fs lost rs ∧
    LostOnlyBy (∃ rest, s.script = .port .rst :: rest) t lost rs ∧
      (pushed = [] ∨ ∃ b rest, s.script = .port (.rx b) :: rest ∧ pushed = [b]) := by
  obtain ⟨-, rfl⟩ | ⟨op, rest, i, hs, hd, ho, hx⟩ | ⟨rest, -, hp, ⟨-, rfl⟩ | ⟨f, hf, rfl⟩⟩ := step_cases h
  · exact ⟨[], [], [], [], accounts_of_unchanged rfl rfl rfl, lostOnlyBy_nil _ _, .inl rfl⟩
  · obtain ⟨pushed, fs, lost, rs, ha, hlost, hpushed⟩ := accounts_port (s := s.setScript rest) hd ho hx
    refine ⟨pushed, fs, lost, rs, ha.of_setScript, hlost.imp fun hop => ⟨rest, hop ▸ hs⟩, ?_⟩
    obtain hnone | ⟨b, hop, hb⟩ := hpushed
    · exact .inl hnone
    · exact .inr ⟨b, rest, hop ▸ hs, hb⟩
  · obtain ⟨lost, rs, ha, hlost⟩ := accounts_poll (s := s.setScript rest) hp
    exact ⟨[], [], lost, rs, ha.of_setScript, hlost.imp False.elim, .inl rfl⟩
  · have ha := accounts_poll_dispatch (s := s.setScript rest) hp hf
    exact ⟨[], [f], [], [], ha.of_setScript, lostOnlyBy_nil _ _, .inl rfl⟩

/-- An operation only appends to the sent bytes and does not change the configuration. -/
theorem exec_wire_cfg {i : Instr} {s t : State} (h : exec i s = .next t) : s.wire <+: t.wire ∧ t.cfg = s.cfg := by
  obtain ⟨hcfg, -, -, -⟩ := eachSideLeavesTheOtherAlone i s t h
  refine ⟨?_, hcfg⟩
  cases hside : side i with
  | transmit =>
    obtain htx | ⟨n, rfl⟩ := exec_of_side_transmit hside
    · rw [htx] at h
      obtain ⟨-, rfl⟩ := transmit_next h
      exact ⟨[], List.append_nil _⟩
    · obtain ⟨-, rfl⟩ := txpop_next h
      exact ⟨s.txq.take n, rfl⟩
  | receive =>
    obtain ⟨-, hwire, -⟩ := receive_side_frame hside h
    exact ⟨[], by simp [hwire]⟩
  | both =>
    obtain rfl := eq_reset_of_side_both hside
    rw [exec_reset] at h
    obtain rfl := next_inj h
    exact ⟨[], List.append_nil _⟩

/-- A step only appends to the sent bytes and does not change the configuration. -/
theorem step_wire_cfg {s t : State} (h : step s = .next t) : s.wire <+: t.wire ∧ t.cfg = s.cfg := by
  obtain ⟨-, rfl⟩ | ⟨op, rest, i, -, -, -, hx⟩ | ⟨rest, -, -, ⟨-, rfl⟩ | ⟨f, -, rfl⟩⟩ := step_cases h
  · exact ⟨⟨[], List.append_nil _⟩, rfl⟩
  · exact exec_wire_cfg (s := s.setScript rest) hx
  · exact exec_wire_cfg (s := s.setScript rest) (exec_poll _)
  · obtain ⟨hw, hc⟩ := exec_wire_cfg (exec_poll (s.setScript rest))
    obtain ⟨hw', hc'⟩ := exec_wire_cfg (exec_dispatch (s.setScript rest).poll f)
    exact ⟨hw.trans hw', hc'.trans hc⟩

/-- Settles O42: the account of the step, with the DISPATCHes of its frames as a run of their own. -/
theorem stepOnlyAppendsToOutputsInStreamOrder : Obligations.StepOnlyAppendsToOutputsInStreamOrder := by
  intro s t h
  obtain ⟨hwire, hcfg⟩ := step_wire_cfg h
  obtain ⟨pushed, fs, lost, rs, ⟨hstream, hevt, hlog⟩, ⟨hone, hflush, hlost⟩, hpushed⟩ := accounts_step h
  refine ⟨⟨⟨_, hevt.symm⟩, ⟨fs.flatMap frameRecords ++ rs, by rw [hlog, List.append_assoc]⟩, hwire, hcfg⟩,
    pushed, lost, fs, rs, dispatchAll fs s, hstream, runAll_dispatch fs s, ?_, ?_, hone, hflush, hpushed, hlost⟩
  · rw [hevt, dispatchAll_eq]
  · rw [hlog, dispatchAll_eq]

end Sys2Proof.Proofs.StreamOrder

/-! PROOFS. How a stream is cut into chunks (spec/40_framer.md R86, spec/90_conflicts.md C2). `OnTrack` says that what has
been output and what is still in the stream make up the whole; pushes and SERVICEs keep it unless a payload stalls. -/

namespace Sys2Proof.Proofs.Chunks

open Sys2Proof.Machine Sys2Proof.Laws Sys2Proof.Proofs.Framer Sys2Proof.Proofs.Dispatch Sys2Proof.Proofs.Poll
open Sys2Proof.Proofs.Service Sys2Proof.Proofs.Sides

/-! ### Sequences of operations -/

/-- A sequence answers a next state through the state after its first operation. -/
theorem runAll_cons {i : Instr} {is : List Instr} {s t : State} :
    runAll (i :: is) s = .next t ↔ ∃ u, exec i s = .next u ∧ runAll is u = .next t := by
  rw [runAll]
  cases exec i s <;> simp

/-- One sequence behind another runs from where the first ended. -/
theorem runAll_append {is js : List Instr} {s t : State} :
    runAll (is ++ js) s = .next t ↔ ∃ u, runAll is s = .next u ∧ runAll js u = .next t := by
  induction is generalizing s with
  | nil => simp [runAll]
  | cons i is ih =>
    simp only [List.cons_append, runAll_cons, ih]
    constructor
    · rintro ⟨v, hv, u, hu, ht⟩
      exact ⟨u, ⟨v, hv, hu⟩, ht⟩
    · rintro ⟨u, ⟨v, hv, hu⟩, ht⟩
      exact ⟨v, hv, u, hu, ht⟩

/-- Pushes that answer a next state have appended their bytes. -/
theorem runAll_pushAll_next {bytes : List Byte} {s t : State} (h : runAll (pushAll bytes) s = .next t) :
    t = s.setRxq (s.rxq ++ bytes) := by
  induction bytes generalizing s with
  | nil => rw [next_inj h, List.append_nil]; rfl
  | cons b bytes ih =>
    obtain ⟨u, hu, ht⟩ := runAll_cons.mp h
    obtain ⟨-, rfl⟩ := rxpush_next hu
    rw [ih ht, State.rxAppend_rxq, List.append_assoc]
    rfl

/-- With RXQ unbounded the pushes of any bytes answer a next state. -/
theorem runAll_pushAll {s : State} (hcap : s.cfg.rxqCap = none) (bytes : List Byte) :
    runAll (pushAll bytes) s = .next (s.setRxq (s.rxq ++ bytes)) := by
  have hsome : ∃ t, runAll (pushAll bytes) s = .next t := by
    induction bytes generalizing s with
    | nil => exact ⟨s, rfl⟩
    | cons b bytes ih =>
      obtain ⟨t, ht⟩ := ih (s := s.rxAppend b) hcap
      exact ⟨t, runAll_cons.mpr ⟨_, (exec_rxpush s b).trans (if_pos (by rw [hcap]; rfl)), ht⟩⟩
  obtain ⟨t, ht⟩ := hsome
  rw [ht, runAll_pushAll_next ht]

/-! ### The stream still to be dispatched -/

/-- The last frame of a stream, not whole yet: less than a header, or a header with too little behind it. -/
def Incomplete (tail : List Byte) : Prop :=
  tail.length < 2 ∨ ∃ kind length rest, tail = kind :: length :: rest ∧ length.toNat ≤ 32 ∧ rest.length < length.toNat

/-- No whole frame begins an incomplete one. -/
theorem Incomplete.ne_frame {tail rest : List Byte} {f : Frame} (h : Incomplete tail)
    (hp : f.payload.length = f.length.toNat) : tail ≠ f.bytes ++ rest := by
  rintro rfl
  obtain hshort | ⟨kind, length, tail, heq, -, hlt⟩ := h
  · simp [Frame.bytes] at hshort
  · obtain ⟨-, rfl, rfl⟩ : f.kind = kind ∧ f.length = length ∧ f.payload ++ rest = tail := by
      simpa [Frame.bytes] using heq
    rw [List.length_append] at hlt
    omega

/-- No header of well-formed frames with an incomplete one behind them is corrupt. -/
theorem length_le_of_frames {fs : List Frame} {tail rest : List Byte} {kind length : Byte}
    (hfs : ∀ f ∈ fs, f.wf = true) (htail : Incomplete tail)
    (h : fs.flatMap Frame.bytes ++ tail = kind :: length :: rest) : length.toNat ≤ 32 := by
  cases fs with
  | nil =>
    obtain rfl : tail = kind :: length :: rest := h
    obtain hshort | ⟨_, _, _, heq, hl, -⟩ := htail
    · simp at hshort
    · cases heq
      exact hl
  | cons f fs =>
    obtain ⟨-, rfl, -⟩ : f.kind = kind ∧ f.length = length ∧ f.payload ++ fs.flatMap Frame.bytes ++ tail = rest := by
      simpa [Frame.bytes] using h
    exact ((frame_wf_iff f).mp (hfs f List.mem_cons_self)).2

/-- The bytes in the stream, with those still to be pushed, are whole frames and the tail; and the DISPATCH of these frames
would bring EVT to `es` and LOG to `rs`. -/
def OnTrack (tail : List Byte) (es : List Event) (rs : List Record) (future : List Byte) (s : State) : Prop :=
  ∃ fs : List Frame, (∀ f ∈ fs, f.wf = true) ∧ s.ps.pending ++ s.rxq ++ future = fs.flatMap Frame.bytes ++ tail ∧
    s.evt ++ fs.flatMap frameEvents = es ∧ s.log ++ fs.flatMap frameRecords = rs

section track

variable {tail : List Byte} {es : List Event} {rs : List Record} (htail : Incomplete tail)

include htail

/-- POLL and the DISPATCH of the Frame it returned keep to the track: the Frame is the first one of the stream. -/
theorem OnTrack.poll_dispatch {future : List Byte} {s : State} {f : Frame} (h : OnTrack tail es rs future s)
    (hf : s.poll.polled = some f) : OnTrack tail es rs future (s.poll.dispatch f) := by
  obtain ⟨fs, hfs, hstream, hevt, hlog⟩ := h
  obtain ⟨rest, hframer⟩ := poll_polled_some.mp hf
  have hmore := framer_complete_append future hframer
  cases fs with
  | nil =>
    obtain ⟨htaken, -, hp⟩ := (pollLosesNoByteUnlessItFlushes s s.poll (exec_poll s)).1 f hf
    rw [htaken, List.append_assoc] at hstream
    exact absurd hstream.symm (htail.ne_frame hp)
  | cons g fs =>
    have hfirst : framer s.ps (s.rxq ++ future) = .complete g (fs.flatMap Frame.bytes ++ tail) :=
      framer_of_stream (hfs g List.mem_cons_self) (by simpa using hstream)
    obtain ⟨rfl, hrest⟩ : f = g ∧ rest ++ future = fs.flatMap Frame.bytes ++ tail := by simpa [hmore] using hfirst
    rw [poll_complete hframer, dispatch_eq]
    exact ⟨fs, fun g hg => hfs g (List.mem_cons_of_mem f hg), by simpa [ParserState.pending] using hrest,
      by simpa using hevt, by simpa using hlog⟩

/-- A POLL that returns None keeps to the track, and is at its end when nothing is to be pushed; or it stalls. -/
theorem OnTrack.poll_none {future : List Byte} {s : State} (h : OnTrack tail es rs future s)
    (hn : s.poll.polled = none) :
    (OnTrack tail es rs future s.poll ∧ (future = [] → s.poll.evt = es ∧ s.poll.log = rs)) ∨
      ∃ kind length, s.poll.log = s.log ++ [⟨.payloadStall, kind, length⟩] := by
  obtain ⟨fs, hfs, hstream, hevt, hlog⟩ := h
  obtain ⟨f, q, -, -, -, hpoll⟩ | ⟨p, q, hkept, -, -, hpoll⟩ | ⟨code, kind, length, hc, -, hcorrupt, hpoll⟩ :=
    poll_outcome s
  · simp [hpoll] at hn
  · refine .inl ⟨⟨fs, hfs, by simpa [hpoll, hkept] using hstream, by simpa [hpoll] using hevt,
      by simpa [hpoll] using hlog⟩, ?_⟩
    rintro rfl
    obtain rfl : fs = [] := by
      cases fs with
      | nil => rfl
      | cons g fs =>
        have hfirst : framer s.ps s.rxq = .complete g (fs.flatMap Frame.bytes ++ tail) :=
          framer_of_stream (hfs g List.mem_cons_self) (by simpa using hstream)
        simp [poll_complete hfirst] at hn
    exact ⟨by simpa [hpoll] using hevt, by simpa [hpoll] using hlog⟩
  · cases code with
    | headerCorruption =>
      obtain ⟨hl, rest, hhead⟩ := hcorrupt rfl
      rw [hhead] at hstream
      have := length_le_of_frames hfs htail hstream.symm
      omega
    | payloadStall => exact .inr ⟨kind, length, by simp [hpoll]⟩
    | payloadSizeMismatch | unrecognizedKind => cases hc

/-- SERVICE only appends to LOG; and unless what it appends has a stall, it keeps to the track, and is at its end when
nothing is to be pushed. -/
theorem service_onTrack (s : State) (future : List Byte) : ∃ new, s.service.log = s.log ++ new ∧
    ((∀ r ∈ new, r.code ≠ .payloadStall) → OnTrack tail es rs future s →
      OnTrack tail es rs future s.service ∧ (future = [] → s.service.evt = es ∧ s.service.log = rs)) := by
  have hsome : ∀ v f, ((∃ x, v.log = s.log ++ x) ∧ (OnTrack tail es rs future s → OnTrack tail es rs future v)) →
      v.poll.polled = some f → ((∃ x, (v.poll.dispatch f).log = s.log ++ x) ∧
        (OnTrack tail es rs future s → OnTrack tail es rs future (v.poll.dispatch f))) := by
    rintro v f ⟨⟨x, hx⟩, hv⟩ hf
    obtain ⟨rest, hframer⟩ := poll_polled_some.mp hf
    exact ⟨⟨x ++ frameRecords f, by simp [dispatch_eq, poll_complete hframer, hx]⟩,
      fun hs => (hv hs).poll_dispatch htail hf⟩
  obtain ⟨v, ⟨⟨x, hx⟩, hv⟩, hn, hlast⟩ := service_last_poll hsome s ⟨⟨[], by simp⟩, id⟩
  obtain ⟨t, new, ht, hnew, -⟩ := pollIsTotalAndNeverReturnsAndLogs v
  obtain rfl := next_inj ht
  rw [hlast]
  refine ⟨x ++ new, by rw [hnew, hx, List.append_assoc], fun hstall hs => ?_⟩
  obtain hdone | ⟨kind, length, hlog⟩ := (hv hs).poll_none htail hn
  · exact hdone
  · have hmem : new = [⟨.payloadStall, kind, length⟩] := List.append_cancel_left (hnew.symm.trans hlog)
    exact absurd rfl (hstall ⟨.payloadStall, kind, length⟩ (by simp [hmem]))

omit htail in
/-- Pushing a chunk moves its bytes from what is to be pushed into the stream. -/
theorem OnTrack.push {bytes future : List Byte} {s : State} (h : OnTrack tail es rs (bytes ++ future) s) :
    OnTrack tail es rs future (s.setRxq (s.rxq ++ bytes)) := by
  obtain ⟨fs, hfs, hstream, hevt, hlog⟩ := h
  exact ⟨fs, hfs, by simpa using hstream, hevt, hlog⟩

/-- From `s` with `future` to be pushed to `t` with `future'`: LOG is only appended to, and unless what is appended has a
stall the track is kept. -/
def KeepsTrack (tail : List Byte) (es : List Event) (rs : List Record) (s : State) (future : List Byte) (t : State)
    (future' : List Byte) : Prop :=
  ∃ new, t.log = s.log ++ new ∧
    ((∀ r ∈ new, r.code ≠ .payloadStall) → OnTrack tail es rs future s → OnTrack tail es rs future' t)

omit htail in
/-- Runs that keep the track one after the other keep it. -/
theorem KeepsTrack.trans {s v t : State} {future future' future'' : List Byte}
    (h : KeepsTrack tail es rs s future v future') (h' : KeepsTrack tail es rs v future' t future'') :
    KeepsTrack tail es rs s future t future'' := by
  obtain ⟨x, hx, hv⟩ := h
  obtain ⟨y, hy, ht⟩ := h'
  refine ⟨x ++ y, by rw [hy, hx, List.append_assoc], fun hstall hs => ?_⟩
  exact ht (fun r hr => hstall r (List.mem_append_right x hr))
    (hv (fun r hr => hstall r (List.mem_append_left y hr)) hs)

/-- Any number of SERVICEs keeps the track. -/
theorem services_keepTrack {n : Nat} {s t : State} (h : runAll (List.replicate n .service) s = .next t)
    (future : List Byte) : KeepsTrack tail es rs s future t future := by
  induction n generalizing s with
  | zero =>
    rw [next_inj h]
    exact ⟨[], by simp, fun _ => id⟩
  | succ n ih =>
    obtain ⟨u, hu, ht⟩ := runAll_cons.mp h
    rw [next_inj hu] at ht
    obtain ⟨new, hnew, hkeep⟩ := service_onTrack htail s future
    exact KeepsTrack.trans ⟨new, hnew, fun hstall hs => (hkeep hstall hs).1⟩ (ih ht)

/-- A chunk and its SERVICEs keep the track. -/
theorem chunk_keepsTrack {chunk : List Byte × Nat} {s t : State} (h : runAll (chunkOps chunk) s = .next t)
    (future : List Byte) : KeepsTrack tail es rs s (chunk.1 ++ future) t future := by
  obtain ⟨u, hu, ht⟩ := runAll_append.mp h
  obtain rfl := runAll_pushAll_next hu
  exact KeepsTrack.trans ⟨[], by simp, fun _ => OnTrack.push⟩ (services_keepTrack htail ht future)

/-- Any chunks and SERVICEs keep the track. -/
theorem chunks_keepTrack {chunks : List (List Byte × Nat)} {s t : State}
    (h : runAll (chunks.flatMap chunkOps) s = .next t) :
    KeepsTrack tail es rs s (chunks.flatMap Prod.fst) t [] := by
  induction chunks generalizing s with
  | nil =>
    rw [next_inj h]
    exact ⟨[], by simp, fun _ => id⟩
  | cons chunk chunks ih =>
    rw [List.flatMap_cons] at h
    obtain ⟨u, hu, ht⟩ := runAll_append.mp h
    exact (chunk_keepsTrack htail hu _).trans (ih ht)

omit htail in
/-- SERVICE of an incomplete frame alone outputs nothing. -/
theorem service_of_incomplete {s : State} (hps : s.ps = .awaitingHeader) (h : Incomplete s.rxq) :
    s.service.evt = s.evt ∧ s.service.log = s.log := by
  obtain hshort | ⟨kind, length, rest, hrxq, hl, hlt⟩ := h
  · rw [service_of_short hps hshort]
    exact ⟨rfl, rfl⟩
  · have hpoll := poll_await (s := s) (kind := kind) (length := length) (rest := rest)
      (by rw [hps, hrxq, framer_await hl hlt])
    rw [service_of_polled_none (by rw [hpoll]; rfl), hpoll]
    exact ⟨rfl, rfl⟩

end track

/-- SERVICE of frames with an incomplete one behind them outputs what the DISPATCHes of the frames do. -/
theorem service_of_whole_stream {fs : List Frame} {tail : List Byte} {s : State} (hfs : ∀ f ∈ fs, f.wf = true)
    (htail : Incomplete tail) (hps : s.ps = .awaitingHeader) (hrxq : s.rxq = fs.flatMap Frame.bytes ++ tail) :
    s.service.evt = s.evt ++ fs.flatMap frameEvents ∧ s.service.log = s.log ++ fs.flatMap frameRecords := by
  rw [service_of_frames hfs hps hrxq, dispatchAll_eq]
  exact service_of_incomplete hps htail

/-- One SERVICE more behind a chunk. -/
theorem chunkOps_succ (bytes : List Byte) (n : Nat) :
    chunkOps (bytes, n + 1) = chunkOps (bytes, n) ++ [.service] := by
  simp [chunkOps, List.replicate_succ']

/-- Settles O17: from the start of the stream to the last SERVICE the track is kept, so the run ends where the DISPATCHes
of all the frames end, as the one SERVICE of the whole stream does. -/
theorem chunkBoundariesDoNotMatterWithoutStall : Obligations.ChunkBoundariesDoNotMatterWithoutStall := by
  intro fs tail lastBytes chunks n s t hps hrxq hcap hfs htail hbytes hrun hstall
  have htail : Incomplete tail := htail
  have hops : (chunks ++ [(lastBytes, n + 1)]).flatMap chunkOps =
      (chunks ++ [(lastBytes, n)]).flatMap chunkOps ++ [.service] := by simp [chunkOps_succ]
  have hsame : (chunks ++ [(lastBytes, n)]).flatMap Prod.fst = fs.flatMap Frame.bytes ++ tail := by simpa using hbytes
  rw [hops] at hrun
  obtain ⟨v, hv, hlast⟩ := runAll_append.mp hrun
  obtain rfl : t = v.service := next_inj hlast
  have hstart : OnTrack tail (s.evt ++ fs.flatMap frameEvents) (s.log ++ fs.flatMap frameRecords)
      (fs.flatMap Frame.bytes ++ tail) s := ⟨fs, hfs, by simp [hps, hrxq, ParserState.pending], rfl, rfl⟩
  obtain ⟨x, hx, hkeep⟩ := chunks_keepTrack htail hv
  obtain ⟨y, hy, hend⟩ := service_onTrack htail v []
  have hnew : v.service.log.drop s.log.length = x ++ y := by rw [hy, hx, List.append_assoc, List.drop_left]
  rw [hnew] at hstall
  have hmid := hkeep (fun r hr => hstall r (List.mem_append_left y hr)) (hsame ▸ hstart)
  obtain ⟨hevt, hlog⟩ := (hend (fun r hr => hstall r (List.mem_append_right x hr)) hmid).2 rfl
  have hwhole := runAll_pushAll hcap (fs.flatMap Frame.bytes ++ tail)
  rw [hrxq, List.nil_append] at hwhole
  refine ⟨_, runAll_append.mpr ⟨_, hwhole, rfl⟩, ?_⟩
  obtain ⟨hevt', hlog'⟩ := service_of_whole_stream (s := s.setRxq (fs.flatMap Frame.bytes ++ tail)) hfs htail hps rfl
  exact ⟨hevt.trans hevt'.symm, hlog.trans hlog'.symm⟩

/-- Refutes O18: four SERVICEs on `61 02 01`, whose last payload byte is pushed after them, count two retries and stall, so
the settings report of the whole frame is never emitted. -/
theorem not_chunkingNeverChangesEvents : ¬ Obligations.ChunkingNeverChangesEvents := by
  intro h
  have hevt := h ⟨0x61, 2, [1, 0]⟩ [0x61, 2, 1] [0] 4 State.reset
    { State.reset with rxq := [0], log := [⟨.payloadStall, 0x61, 2⟩] }
    { State.reset with evt := [.settingsReport .pitch 1 0] } rfl rfl rfl rfl rfl rfl
  cases hevt

end Sys2Proof.Proofs.Chunks
